-- ==== Sys2Proof/Word.lean ====
section
/-! DEFINITION. The word types of CORE: every quantity is an unsigned word of a fixed width (00_scope.md R10). -/

namespace Sys2Proof

/-- One byte: a command byte, a ring slot, the pulse index, the elapsed count (10_state.md R20). -/
abbrev Byte := BitVec 8

/-- The frame accumulator's type, `ACC_W` = 32 bits wide (00_scope.md R9, 10_state.md R21). -/
abbrev Acc := BitVec 32

/-- A request word of format Q: `op` in bits 11:8, `data` in bits 7:0 (30_encoding.md R70). -/
abbrev RequestWord := BitVec 12

/-- A response word: `err` in bit 9, `valid` in bit 8, `data` in bits 7:0 (30_encoding.md R73). -/
abbrev ResponseWord := BitVec 10

end Sys2Proof
end

