-- ==== Sys2Proof/Syntax.lean ====
section
/-! DEFINITION. The operations of CORE's request port: one constructor per row of spec/opcode_table.json
(30_encoding.md R71), each with the row's one open field, `data`. -/

namespace Sys2Proof

/-- A request, decoded. `data` is bits 7:0 of the request word: the operand byte of PUT, and ignored ("any value
accepted, no effect", 30_encoding.md R70) by every other operation; it is kept so that no bit of a word is lost
(log entry 11). -/
inductive Instr where
  /-- NOP, `op` = 0x0 (43_control.md R163); `data`: ignored. -/
  | nop (data : Byte)
  /-- INIT, `op` = 0x1 (43_control.md R160); `data`: ignored. -/
  | init (data : Byte)
  /-- EDGE, `op` = 0x2 (40_decoder.md R100); `data`: ignored. -/
  | edge (data : Byte)
  /-- TICK, `op` = 0x3 (41_timeout.md R130); `data`: ignored. -/
  | tick (data : Byte)
  /-- GET, `op` = 0x4 (42_ringbuffer.md R141); `data`: ignored. -/
  | get (data : Byte)
  /-- EMPTY, `op` = 0x5 (42_ringbuffer.md R142); `data`: ignored. -/
  | empty (data : Byte)
  /-- FULL, `op` = 0x6 (42_ringbuffer.md R143); `data`: ignored. -/
  | full (data : Byte)
  /-- EDGE_DIS, `op` = 0x7 (43_control.md R161); `data`: ignored. -/
  | edgeDis (data : Byte)
  /-- EDGE_ENA, `op` = 0x8 (43_control.md R162); `data`: ignored. -/
  | edgeEna (data : Byte)
  /-- PUT, `op` = 0x9 (42_ringbuffer.md R140); `data`: the operand byte. -/
  | put (data : Byte)
  /-- RESERVED_A, `op` = 0xA (43_control.md R164); `data`: ignored. -/
  | reservedA (data : Byte)
  /-- RESERVED_B, `op` = 0xB (43_control.md R164); `data`: ignored. -/
  | reservedB (data : Byte)
  /-- RESERVED_C, `op` = 0xC (43_control.md R164); `data`: ignored. -/
  | reservedC (data : Byte)
  /-- RESERVED_D, `op` = 0xD (43_control.md R164); `data`: ignored. -/
  | reservedD (data : Byte)
  /-- RESERVED_E, `op` = 0xE (43_control.md R164); `data`: ignored. -/
  | reservedE (data : Byte)
  /-- RESERVED_F, `op` = 0xF (43_control.md R164); `data`: ignored. -/
  | reservedF (data : Byte)
  deriving DecidableEq, Repr

/-- The operation code of 30_encoding.md R71. -/
def Instr.op : Instr → BitVec 4
  | .nop _ => 0x0#4
  | .init _ => 0x1#4
  | .edge _ => 0x2#4
  | .tick _ => 0x3#4
  | .get _ => 0x4#4
  | .empty _ => 0x5#4
  | .full _ => 0x6#4
  | .edgeDis _ => 0x7#4
  | .edgeEna _ => 0x8#4
  | .put _ => 0x9#4
  | .reservedA _ => 0xA#4
  | .reservedB _ => 0xB#4
  | .reservedC _ => 0xC#4
  | .reservedD _ => 0xD#4
  | .reservedE _ => 0xE#4
  | .reservedF _ => 0xF#4

/-- The `data` field, bits 7:0 (30_encoding.md R70). -/
def Instr.data : Instr → Byte
  | .nop d => d
  | .init d => d
  | .edge d => d
  | .tick d => d
  | .get d => d
  | .empty d => d
  | .full d => d
  | .edgeDis d => d
  | .edgeEna d => d
  | .put d => d
  | .reservedA d => d
  | .reservedB d => d
  | .reservedC d => d
  | .reservedD d => d
  | .reservedE d => d
  | .reservedF d => d

end Sys2Proof
end

