-- ==== Sys2Proof/WellFormed.lean ====
section
/-! DEFINITION. Well-formed instructions: those in the spec's canonical form. -/

namespace Sys2Proof

/-- The canonical form of 30_encoding.md R70: a `data` field that the operation ignores is "written as `0x00` in
canonical encodings". PUT's byte may be anything; the other fifteen codes carry 0x00. The machine runs every word,
canonical or not; this is what a trace is WRITTEN with (R84: "with `data = 0x00`"). -/
def Instr.wellFormed : Instr → Bool
  | .nop d => d == 0
  | .init d => d == 0
  | .edge d => d == 0
  | .tick d => d == 0
  | .get d => d == 0
  | .empty d => d == 0
  | .full d => d == 0
  | .edgeDis d => d == 0
  | .edgeEna d => d == 0
  | .put _ => true
  | .reservedA d => d == 0
  | .reservedB d => d == 0
  | .reservedC d => d == 0
  | .reservedD d => d == 0
  | .reservedE d => d == 0
  | .reservedF d => d == 0

end Sys2Proof
end

