-- ==== Sys2Proof/Decode.lean ====
section
/-! DEFINITION. The decoder of request words (30_encoding.md R70, R71), total, and the encoder written from the same
table. "the decoder reads `op` and nothing else to select the operation": sixteen codes, sixteen rows, so every 12-bit
word decodes; only a value wider than a request word is rejected, by name. -/

namespace Sys2Proof

/-- Bits 11:8 of a request word (30_encoding.md R70). -/
def opField (w : RequestWord) : BitVec 4 := w.extractLsb' 8 4

/-- Bits 7:0 of a request word (30_encoding.md R70). -/
def dataField (w : RequestWord) : Byte := w.extractLsb' 0 8

/-- Why a value is no request. -/
inductive DecodeReject where
  /-- The value does not fit 12 bits: "A request is one 12-bit word, fixed length" (30_encoding.md R70). -/
  | wordTooWide
  deriving DecidableEq, Repr

/-- The operation a request word selects (30_encoding.md R71: `word & mask == match` with mask 0xF00). Codes 0xA to
0xF are rows of their own (RESERVED_A to RESERVED_F), so no reserved code falls through to a neighbour. -/
def decode (w : RequestWord) : Instr :=
  if opField w = 0x0#4 then .nop (dataField w)
  else if opField w = 0x1#4 then .init (dataField w)
  else if opField w = 0x2#4 then .edge (dataField w)
  else if opField w = 0x3#4 then .tick (dataField w)
  else if opField w = 0x4#4 then .get (dataField w)
  else if opField w = 0x5#4 then .empty (dataField w)
  else if opField w = 0x6#4 then .full (dataField w)
  else if opField w = 0x7#4 then .edgeDis (dataField w)
  else if opField w = 0x8#4 then .edgeEna (dataField w)
  else if opField w = 0x9#4 then .put (dataField w)
  else if opField w = 0xA#4 then .reservedA (dataField w)
  else if opField w = 0xB#4 then .reservedB (dataField w)
  else if opField w = 0xC#4 then .reservedC (dataField w)
  else if opField w = 0xD#4 then .reservedD (dataField w)
  else if opField w = 0xE#4 then .reservedE (dataField w)
  else .reservedF (dataField w)

/-- The decoder on any number presented as a request (log entry 12). -/
def decodeRaw (v : Nat) : Except DecodeReject Instr :=
  if v < 2 ^ 12 then .ok (decode (BitVec.ofNat 12 v)) else .error .wordTooWide

/-- The request word of an instruction: `op` in bits 11:8, `data` in bits 7:0 (30_encoding.md R70, R71). -/
def encode : Instr → RequestWord
  | .nop d => 0x0#4 ++ d
  | .init d => 0x1#4 ++ d
  | .edge d => 0x2#4 ++ d
  | .tick d => 0x3#4 ++ d
  | .get d => 0x4#4 ++ d
  | .empty d => 0x5#4 ++ d
  | .full d => 0x6#4 ++ d
  | .edgeDis d => 0x7#4 ++ d
  | .edgeEna d => 0x8#4 ++ d
  | .put d => 0x9#4 ++ d
  | .reservedA d => 0xA#4 ++ d
  | .reservedB d => 0xB#4 ++ d
  | .reservedC d => 0xC#4 ++ d
  | .reservedD d => 0xD#4 ++ d
  | .reservedE d => 0xE#4 ++ d
  | .reservedF d => 0xF#4 ++ d

/-- What the decoder reads from a row's bits `w`, numbered as spec/opcode_table.json numbers them. A request word is
ONE word of 12 bits, so the number is the word (log entry 12). -/
def decodeTableWord (_nbits w : Nat) : Option Instr :=
  match decodeRaw w with
  | .ok i => some i
  | .error _ => none

end Sys2Proof
end

