-- ==== Sys2Proof/Config.lean ====
section
/-! DEFINITION. What an implementation of CORE fixes (00_scope.md R8), the spec's named literals (R9), and the
one free value of the model: what a ring slot that no PUT has written holds (10_state.md R29, U5). -/

namespace Sys2Proof

/-- The three parameters of 00_scope.md R8, "each of these without a value; the model takes each as an argument".
They are fixed for a run (10_state.md R36): the state carries them, no operation writes them (log entry 1). -/
structure Params where
  /-- `N`, the number of byte slots of the ring. -/
  slots    : Nat
  /-- `T_TIMEOUT`, the timeout bound in TICKs; 8 bits wide, so at most 255 by its type. -/
  tTimeout : Byte
  /-- `IDX_MAX`, the largest pulse index; 8 bits wide, so at most 255 by its type. -/
  idxMax   : Byte
  deriving DecidableEq, Repr

/-- The constraints of 00_scope.md R8: `N >= 2`, `110 <= T_TIMEOUT <= 255`, `37 <= IDX_MAX <= 255` (the two upper
bounds hold by type). Values outside them are rejected, not given a meaning (93_implementation_defined.md U9). -/
def Params.legal (p : Params) : Bool :=
  decide (2 ≤ p.slots) && decide (110#8 ≤ p.tTimeout) && decide (37#8 ≤ p.idxMax)

/-- The values the spec's vectors use: `N = 4`, `T_TIMEOUT = 150`, `IDX_MAX = 255` (00_scope.md R8).
DESIGN CHOICE (log entry 1): only `State.reset` takes them; every claim is about every parameter value. -/
def Params.vectors : Params := { slots := 4, tTimeout := 150#8, idxMax := 255#8 }

/-- The configuration record of 00_scope.md R9: the literals of the validity table and of the completion rule, named
as the rule names them. The two widths of R9 (`ACC_W` = 32, slot width = 8) are the types `Acc` and `Byte`. -/
structure Literals where
  wLead        : Byte
  wSync        : Byte
  wData        : Byte
  bitThr       : Byte
  wGap         : Byte
  wShort       : Byte
  wLong        : Byte
  idxFirstData : Byte
  idxDone      : Byte
  idxRpt       : Byte
  deriving DecidableEq, Repr

/-- The values of 00_scope.md R9, kept as written though "unaudited" (92_eei_decisions.md D23; UNVERIFIED, log entry
14): a corrected literal is a change here and nowhere else. -/
def literals : Literals :=
  { wLead := 0, wSync := 10, wData := 5, bitThr := 2, wGap := 50, wShort := 5, wLong := 110
    idxFirstData := 3, idxDone := 34, idxRpt := 37 }

/-- FREE VALUE: the byte a ring slot holds while no PUT has written it ("Each slot of `buf` is unconstrained until a
PUT writes it", 93_implementation_defined.md U5). It has no body: nothing can evaluate it (log entry 8). -/
opaque Config.unwrittenSlot : Nat → Byte

end Sys2Proof
end

