-- ==== Sys2Proof/Machine/State.lean ====
section
/-! DEFINITION. The state of CORE (10_state.md R20), what its steps answer, why a step can stop, and reset (R39). -/

namespace Sys2Proof.Machine

/-- The request port the trace is presented on (30_encoding.md R71, 42_ringbuffer.md R140, R147). DESIGN CHOICE (log
entry 6): the spec gives one difference between the two, code 0x9, and the model makes none other. -/
inductive Port where
  /-- CORE's external request port, where code 0x9 is reserved. -/
  | external
  /-- The ring buffer's own request port, "the ring buffer, taken alone as a component", where code 0x9 is PUT. -/
  | ring
  deriving DecidableEq, Repr

/-- The response of one operation (30_encoding.md R73). -/
structure Response where
  /-- Bit 9: the request word's `op` is reserved on this port. -/
  err   : Bool
  /-- Bit 8: `data` carries an answer. -/
  valid : Bool
  /-- Bits 7:0: the answer; 0x00 when `valid` is 0. -/
  data  : Byte
  deriving DecidableEq, Repr

/-- Why the machine stops with a fault. CORE's own two fatal faults are not here: they are the registers `fault` and
`fcode`, and the machine goes on (60_exceptions.md R172, R173). -/
inductive Fault where
  /-- A ring access at a slot number outside 0 .. N-1 (20_memory.md R50: "with `0 <= a < N`, which the cursors' range
  guarantees"). Raised by `memRead` and `memWrite`, so by GET and by PUT wherever it is performed, and only in states
  that no trace reaches (10_state.md R38 V4). DEDUCED; safe: the model stops where the spec says nothing (log 9). -/
  | noSuchSlot
  deriving DecidableEq, Repr

/-- Why the machine gives a step no meaning. -/
inductive Refusal where
  /-- Raised by an arm of `exec` whose instruction has no meaning yet; no arm of this model is one. Safe. -/
  | notModelled (mnemonic : String)
  /-- Raised by `step` when the parameters break the constraints of 00_scope.md R8: "A model must reject parameter values
  outside the stated constraints rather than give them a meaning" (93_implementation_defined.md U9). Safe (log 2). -/
  | illegalParams
  deriving DecidableEq, Repr

/-- The state of the machine: every register of 10_state.md R20 under its own name, the configuration of the run, and
the request and response side of the step function of 00_scope.md R12. -/
structure State where
  /-- Configuration, not state (10_state.md R36); no operation writes it (log entry 1). -/
  params   : Params
  /-- The port the trace is presented on; no operation writes it (log entry 6). -/
  port     : Port
  /-- The trace still to come, next request first (00_scope.md R5; log entry 3). -/
  requests : List RequestWord
  /-- The frame accumulator (10_state.md R21). -/
  acc      : Acc
  /-- The pulse index (R22). -/
  idx      : Byte
  /-- Milliseconds, that is TICKs, since the last serviced edge (R23). -/
  elapsed  : Byte
  /-- The timeout timer is counting (R24). -/
  run      : Bool
  /-- Edge detection enabled, the spec's `edge_en` (R25). -/
  edgeEn   : Bool
  /-- An edge arrived while disabled, the spec's `edge_pend` (R26). -/
  edgePend : Bool
  /-- INIT has been performed (R27). -/
  inited   : Bool
  /-- A fatal fault has been raised; sticky (R28). -/
  fault    : Bool
  /-- Which fault (R28; 30_encoding.md R82). -/
  fcode    : BitVec 2
  /-- Ring storage: the slots a PUT has written, with their bytes (R29), in the form `Memory.wf`. -/
  buf      : List Host.Cell
  /-- The write cursor (R30); a count modulo `N` (log entry 19). -/
  wr       : Nat
  /-- The read cursor (R31); a count modulo `N` (log entry 19). -/
  rd       : Nat
  /-- The response word of the last operation (30_encoding.md R73; log entry 5). -/
  resp     : Response
  deriving DecidableEq, Repr

/-- The canonical form of ring storage: slot numbers strictly rising. An unlisted slot has no value (10_state.md R39: "a
model gives each slot no value, or an arbitrary one"), so no listed entry can equal what an unlisted slot reads as. -/
abbrev Memory.wf (m : List Host.Cell) : Prop := (m.map Prod.fst).Pairwise (· < ·)

/-- What one step answers. -/
abbrev Result := Host.Outcome State Fault Refusal

/-- Power-on reset under given parameters: "every register of rule R20 at the value in its reset column" (10_state.md
R39), which is 0, and no ring slot with a value. The last four fields are the model's own (log entries 1, 3, 5, 6). -/
def State.resetWith (p : Params) : State :=
  { params := p, port := .external, requests := []
    acc := 0, idx := 0, elapsed := 0, run := false, edgeEn := false, edgePend := false
    inited := false, fault := false, fcode := 0, buf := [], wr := 0, rd := 0
    resp := { err := false, valid := false, data := 0 } }

/-- The machine right after power-on reset (70_reset_and_hazards.md R190), with the parameters of the spec's vectors. -/
def State.reset : State := State.resetWith Params.vectors

end Sys2Proof.Machine
end

