-- ==== Sys2Proof/Machine/Flags.lean ====
section
/-! DEFINITION. The two predicates on the cursors, the count of unread commands and the fault codes (10_state.md R32,
30_encoding.md R82). CORE stores no flag register; its one-bit registers are fields of State. -/

namespace Sys2Proof.Machine

/-- A cursor's successor, `(a + 1) mod N` (40_decoder.md R117): the only wrap-around in CORE. -/
def nextSlot (n a : Nat) : Nat := (a + 1) % n

/-- `empty = (wr == rd)` (10_state.md R32). -/
def isEmpty (s : State) : Bool := decide (s.wr = s.rd)

/-- `full = ((wr + 1) mod N == rd)` (10_state.md R32). -/
def isFull (s : State) : Bool := decide (nextSlot s.params.slots s.wr = s.rd)

/-- `count = (wr - rd) mod N`, the number of unread commands (10_state.md R32), for a read cursor in range. -/
def unreadCount (s : State) : Nat := (s.wr + (s.params.slots - s.rd)) % s.params.slots

/-- `fcode` 0: no fault (30_encoding.md R82). -/
def fcodeNone : BitVec 2 := 0b00#2

/-- `fcode` 1: DOUBLE_INIT (30_encoding.md R82, 60_exceptions.md R171). -/
def fcodeDoubleInit : BitVec 2 := 0b01#2

/-- `fcode` 2: IDX_OVERFLOW (30_encoding.md R82, 60_exceptions.md R171). -/
def fcodeIdxOverflow : BitVec 2 := 0b10#2

end Sys2Proof.Machine
end

