-- ==== Sys2Proof/Machine/Operands.lean ====
section
/-! DEFINITION. What a serviced edge computes from the pulse index, the elapsed sample and the accumulator
(30_encoding.md R75 to R78, 40_decoder.md R104 to R108), and the response words (30_encoding.md R73). -/

namespace Sys2Proof.Machine

/-- The validity function, line by line as 40_decoder.md R104 writes it: `i` is the new pulse index, `e` the elapsed
sample, all comparisons unsigned. -/
def window (i e : Byte) : Bool :=
  if i = 1 then decide (e = literals.wLead)
  else if i = 2 then decide (e < literals.wSync)
  else if literals.idxFirstData ≤ i ∧ i ≤ literals.idxDone then decide (e < literals.wData)
  else if i = 35 then decide (e < literals.wGap)
  else if i = 36 then decide (e < literals.wShort)
  else if literals.idxRpt ≤ i ∧ i.getLsbD 0 = true then decide (e < literals.wLong)
  else if literals.idxRpt ≤ i then decide (e < literals.wShort)
  else false

/-- A data pulse: new index in 3 .. 34 (40_decoder.md R107). -/
def isData (i : Byte) : Bool := decide (literals.idxFirstData ≤ i) && decide (i ≤ literals.idxDone)

/-- A completion pulse: new index 34, or odd and at least 37 (40_decoder.md R108). -/
def isCompletion (i : Byte) : Bool :=
  decide (i = literals.idxDone) || (decide (literals.idxRpt ≤ i) && i.getLsbD 0)

/-- The bit a data pulse carries: 1 when `e >= 2`, else 0 (30_encoding.md R77). -/
def dataBit (e : Byte) : Bool := decide (literals.bitThr ≤ e)

/-- The data shift: left by one place, the new bit at bit 0, bit 31 dropped (40_decoder.md R107). -/
def shiftIn (a : Acc) (b : Bool) : Acc := (a <<< 1) ||| (if b then 1#32 else 0#32)

/-- The accumulator after a valid pulse, `acc'` of 40_decoder.md R101: shifted by a data pulse, else as it was. -/
def accAfter (i e : Byte) (a : Acc) : Acc := if isData i then shiftIn a (dataBit e) else a

/-- The accumulator's bytes, numbered as in 00_scope.md R10 and named as in 30_encoding.md R75; byte 3 holds the bits
received first (90_conflicts.md C1). -/
def addrByte (a : Acc) : Byte := a.extractLsb' 24 8

/-- Byte 2 of the accumulator (30_encoding.md R75). -/
def addrInvertedByte (a : Acc) : Byte := a.extractLsb' 16 8

/-- Byte 1 of the accumulator, the command byte `acc[15:8]` (30_encoding.md R75, R78): taken as it stands. -/
def commandByte (a : Acc) : Byte := a.extractLsb' 8 8

/-- Byte 0 of the accumulator (30_encoding.md R75). -/
def commandInvertedByte (a : Acc) : Byte := a.extractLsb' 0 8

/-- The null response, word 0x000 (30_encoding.md R73); as GET's response it is NONE (R81). -/
def nullResponse : Response := { err := false, valid := false, data := 0 }

/-- An answer: `valid` set, word `0x100 + b` (30_encoding.md R74). -/
def answerByte (b : Byte) : Response := { err := false, valid := true, data := b }

/-- A predicate's answer: data 0x01 or 0x00 (30_encoding.md R74). -/
def answerTruth (p : Bool) : Response := answerByte (if p then 1 else 0)

/-- The response of a code that is reserved on the port, word 0x200 (30_encoding.md R74, R79). -/
def reservedResponse : Response := { err := true, valid := false, data := 0 }

/-- The response as a word: `err` in bit 9, `valid` in bit 8, `data` in bits 7:0 (30_encoding.md R73). -/
def responseWord (r : Response) : ResponseWord := BitVec.ofBool r.err ++ BitVec.ofBool r.valid ++ r.data

end Sys2Proof.Machine
end

