-- ==== Sys2Proof/Machine/Ops.lean ====
section
/-! DEFINITION. The named operations the meanings are written over: ring storage, register updates, fault entry, the
request port and the guards. -/

namespace Sys2Proof.Machine

/-! ### Ring storage (20_memory.md R50) -/

/-- The byte of one slot, if a PUT has written it: the model's read of one byte of memory. -/
def Memory.read? : List Host.Cell → Nat → Option Byte
  | [], _ => none
  | (k, v) :: m, a => if k = a then some v else Memory.read? m a

/-- Storage after a byte is written to a slot, in canonical form. -/
def Memory.write : List Host.Cell → Nat → Byte → List Host.Cell
  | [], a, b => [(a, b)]
  | (k, v) :: m, a, b =>
    if a < k then (a, b) :: (k, v) :: m
    else if a = k then (a, b) :: m
    else (k, v) :: Memory.write m a b

/-- What a slot reads as: its byte, or the free value of a slot no PUT has written (93 U5; log entry 8). -/
def Memory.read (m : List Host.Cell) (a : Nat) : Byte := (Memory.read? m a).getD (Config.unwrittenSlot a)

/-! ### Sequencing of results -/

/-- Go on from a result: a fault or a refusal ends the operation. -/
def andThen (r : Result) (f : State → Result) : Result :=
  match r with
  | .next s => f s
  | .fault e => .fault e
  | .refused e => .refused e

/-- `respond(err, valid, data)` (00_scope.md R11): the operation's response word. -/
def State.respond (s : State) (r : Response) : State := { s with resp := r }

/-- The end of an operation whose response is the null response. -/
def done (s : State) : Result := .next (s.respond nullResponse)

/-! ### Register updates -/

/-- Fault entry, the ONE place where a fatal fault is taken: `fault <- 1`, `fcode <- code`, "Nothing is saved, no mode
changes, control goes nowhere inside CORE" (60_exceptions.md R172). There is no return from it: "There is no operation
that clears `fault`; only power-on reset does" (R174). -/
def State.raiseFault (s : State) (code : BitVec 2) : State := { s with fault := true, fcode := code }

/-- INIT's writes (43_control.md R160). `buf` is not written. -/
def State.arm (s : State) : State :=
  { s with inited := true, edgeEn := true, edgePend := false, run := true, elapsed := 0, idx := 0, acc := 0, wr := 0, rd := 0 }

/-- `idx <- 1 ; acc <- 0`, resync on an invalid pulse (40_decoder.md R105). -/
def State.resync (s : State) : State := { s with idx := 1, acc := 0 }

/-- `idx <- i`, `acc <- acc'`, a valid pulse (40_decoder.md R106, R107). -/
def State.advance (s : State) (i : Byte) (a : Acc) : State := { s with idx := i, acc := a }

/-- `elapsed <- 0 ; run <- 1`, the timer restarted (40_decoder.md R109). -/
def State.restart (s : State) : State := { s with elapsed := 0, run := true }

/-- One millisecond counted (41_timeout.md R130). -/
def State.countTick (s : State) : State := { s with elapsed := s.elapsed + 1#8 }

/-- The timeout action, the decoder idle and the timer stopped (41_timeout.md R131). -/
def State.timeout (s : State) : State := { s with run := false, idx := 0, acc := 0, elapsed := 0 }

/-- An edge latched while edge detection is disabled (10_state.md R26). -/
def State.latchEdge (s : State) : State := { s with edgePend := true }

/-- The latch cleared (43_control.md R162). -/
def State.clearPend (s : State) : State := { s with edgePend := false }

/-- The edge-detection enable written (43_control.md R161, R162). -/
def State.setEdgeEn (s : State) (b : Bool) : State := { s with edgeEn := b }

/-- The write cursor advanced, modulo `N` (42_ringbuffer.md R140). -/
def State.advanceWr (s : State) : State := { s with wr := nextSlot s.params.slots s.wr }

/-- The read cursor advanced, modulo `N` (42_ringbuffer.md R140, R141). -/
def State.advanceRd (s : State) : State := { s with rd := nextSlot s.params.slots s.rd }

/-- Ring storage replaced (20_memory.md R50). -/
def State.setBuf (s : State) (m : List Host.Cell) : State := { s with buf := m }

/-- The trace replaced (log entry 3). -/
def State.setRequests (s : State) (ws : List RequestWord) : State := { s with requests := ws }

/-! ### Ring accesses (00_scope.md R11) -/

/-- `MemWrite(a, 1, v)`: a store of one byte to ring slot `a`, `0 <= a < N` (20_memory.md R50, R56). -/
def memWrite (s : State) (a : Nat) (b : Byte) : Result :=
  if a < s.params.slots then .next (s.setBuf (Memory.write s.buf a b)) else .fault .noSuchSlot

/-- `MemRead(a, 1)`: the byte in ring slot `a`, `0 <= a < N`, handed to what follows (20_memory.md R50, R56). -/
def memRead (s : State) (a : Nat) (k : Byte → Result) : Result :=
  if a < s.params.slots then k (Memory.read s.buf a) else .fault .noSuchSlot

/-- PUT's first step: on a full buffer the oldest unread command is evicted (42_ringbuffer.md R140). -/
def evictIfFull (s : State) : State := if isFull s then s.advanceRd else s

/-- `PUT(b)`: evict when full, store at the write cursor, advance it (42_ringbuffer.md R140). -/
def ringPut (s : State) (b : Byte) : Result :=
  andThen (memWrite (evictIfFull s) s.wr b) fun t => .next t.advanceWr

/-! ### Guards and the request port -/

/-- Guards 1 and 2 of 00_scope.md R12 in front of an operation that both make inert: faulted (60_exceptions.md R173), not
initialised (43_control.md R166). -/
def whenArmed (s : State) (body : Result) : Result :=
  if s.fault then done s
  else if s.inited then body
  else done s

/-- The request of this step and the state with it taken from the trace. An empty trace is an idle slot of the request
port, which NOP stands for (30_encoding.md R71, 43_control.md R163; DEDUCED, log entry 4). -/
def takeRequest (s : State) : RequestWord × State :=
  match s.requests with
  | [] => (0x000#12, s)
  | w :: ws => (w, s.setRequests ws)

end Sys2Proof.Machine
end

