-- ==== Sys2Proof/Machine/Decoder.lean ====
section
/-! DEFINITION. The pulse-width decoder: the sequence `service_edge()` and the EDGE operation (40_decoder.md). -/

namespace Sys2Proof.Machine

/-- A valid pulse at new index `i` with sample `e`: advance, shift if it is a data pulse, push the command byte of the
accumulator after the shift if it is a completion pulse (40_decoder.md R106 to R108). -/
def acceptPulse (s : State) (i e : Byte) : Result :=
  if isCompletion i then ringPut (s.advance i (accAfter i e s.acc)) (commandByte (accAfter i e s.acc))
  else .next (s.advance i (accAfter i e s.acc))

/-- One pulse judged at new index `i` with sample `e` (40_decoder.md R104, R105). -/
def judgePulse (s : State) (i e : Byte) : Result :=
  if window i e then acceptPulse s i e else .next s.resync

/-- `service_edge()` (40_decoder.md R101): the overflow check before anything is changed (R102), the pulse judged at
`idx + 1` by the elapsed sample (R103), the timer restarted whatever the pulse was (R109). -/
def serviceEdge (s : State) : Result :=
  if s.idx = s.params.idxMax then .next (s.raiseFault fcodeIdxOverflow)
  else andThen (judgePulse s (s.idx + 1#8) s.elapsed) fun t => .next t.restart

/-- EDGE: one falling edge of the input line, latched while edge detection is disabled (40_decoder.md R100). -/
def execEdge (_data : Byte) (s : State) : Result :=
  whenArmed s (if s.edgeEn then andThen (serviceEdge s) done else done s.latchEdge)

end Sys2Proof.Machine
end

