-- ==== Sys2Proof/Machine/Control.lean ====
section
/-! DEFINITION. The control operations: INIT, EDGE_DIS, EDGE_ENA, NOP and the reserved codes (43_control.md). -/

namespace Sys2Proof.Machine

/-- INIT: arms the block; a second one is the fatal fault DOUBLE_INIT (43_control.md R160). -/
def execInit (_data : Byte) (s : State) : Result :=
  if s.fault then done s
  else if s.inited then done (s.raiseFault fcodeDoubleInit)
  else done s.arm

/-- EDGE_DIS: the Consumer disables edge detection (43_control.md R161). -/
def execEdgeDis (_data : Byte) (s : State) : Result := whenArmed s (done (s.setEdgeEn false))

/-- EDGE_ENA: the Consumer enables edge detection, and a latched edge is serviced in the same step (43_control.md
R162); the two writes before `service_edge()` stay made when that raises the overflow fault. -/
def execEdgeEna (_data : Byte) (s : State) : Result :=
  whenArmed s
    (if s.edgePend then andThen (serviceEdge (s.setEdgeEn true).clearPend) done
     else done (s.setEdgeEn true))

/-- NOP: nothing, in any state (43_control.md R163). -/
def execNop (_data : Byte) (s : State) : Result := done s

/-- A reserved code: no state change, `err = 1`, in any state (43_control.md R164, 30_encoding.md R79). -/
def reservedCode (s : State) : Result := .next (s.respond reservedResponse)

/-- Code 0xA, reserved (43_control.md R164). -/
def execReservedA (_data : Byte) (s : State) : Result := reservedCode s

/-- Code 0xB, reserved (43_control.md R164). -/
def execReservedB (_data : Byte) (s : State) : Result := reservedCode s

/-- Code 0xC, reserved (43_control.md R164). -/
def execReservedC (_data : Byte) (s : State) : Result := reservedCode s

/-- Code 0xD, reserved (43_control.md R164). -/
def execReservedD (_data : Byte) (s : State) : Result := reservedCode s

/-- Code 0xE, reserved (43_control.md R164). -/
def execReservedE (_data : Byte) (s : State) : Result := reservedCode s

/-- Code 0xF, reserved (43_control.md R164). -/
def execReservedF (_data : Byte) (s : State) : Result := reservedCode s

end Sys2Proof.Machine
end

