-- ==== Sys2Proof/Machine/Ring.lean ====
section
/-! DEFINITION. The ring buffer operations of the request port: PUT, GET, EMPTY, FULL (42_ringbuffer.md). -/

namespace Sys2Proof.Machine

/-- PUT: on the ring buffer's own port `PUT(data)`, which "returns nothing" (42_ringbuffer.md R140), frozen while
faulted (60_exceptions.md R173; log entry 7); on CORE's external port the code is reserved (R147, 43_control.md R164). -/
def execPut (data : Byte) (s : State) : Result :=
  match s.port with
  | .external => .next (s.respond reservedResponse)
  | .ring => if s.fault then done s else andThen (ringPut s data) done

/-- GET: the oldest unread command, or NONE when the buffer is empty or the block is faulted (42_ringbuffer.md R141). -/
def execGet (_data : Byte) (s : State) : Result :=
  if s.fault then done s
  else if isEmpty s then done s
  else memRead s s.rd fun v => .next (s.advanceRd.respond (answerByte v))

/-- EMPTY: a pure predicate, also when faulted or before INIT (42_ringbuffer.md R142). -/
def execEmpty (_data : Byte) (s : State) : Result := .next (s.respond (answerTruth (isEmpty s)))

/-- FULL: a pure predicate, also when faulted or before INIT (42_ringbuffer.md R143). -/
def execFull (_data : Byte) (s : State) : Result := .next (s.respond (answerTruth (isFull s)))

end Sys2Proof.Machine
end

