-- ==== Sys2Proof/Machine/Timeout.lean ====
section
/-! DEFINITION. The timeout supervisor: the TICK operation (41_timeout.md). -/

namespace Sys2Proof.Machine

/-- A TICK taken while the timer counts: below the bound it counts, else it is the timeout (41_timeout.md R130). -/
def countOrTimeout (s : State) : State := if s.elapsed < s.params.tTimeout then s.countTick else s.timeout

/-- TICK: one millisecond; with `run == 0` it changes nothing (41_timeout.md R130, R133). -/
def execTick (_data : Byte) (s : State) : Result :=
  whenArmed s (done (if s.run then countOrTimeout s else s))

end Sys2Proof.Machine
end

