-- ==== Sys2Proof/Machine/Dispatch.lean ====
section
/-! DEFINITION. One arm per constructor of Instr: the meaning of every request. -/

namespace Sys2Proof.Machine

/-- The meaning of one request in one state (30_encoding.md R71). -/
def exec (i : Instr) (s : State) : Host.Outcome State Fault Refusal :=
  match i with
  | .nop d => Sys2Proof.Machine.execNop d s
  | .init d => Sys2Proof.Machine.execInit d s
  | .edge d => Sys2Proof.Machine.execEdge d s
  | .tick d => Sys2Proof.Machine.execTick d s
  | .get d => Sys2Proof.Machine.execGet d s
  | .empty d => Sys2Proof.Machine.execEmpty d s
  | .full d => Sys2Proof.Machine.execFull d s
  | .edgeDis d => Sys2Proof.Machine.execEdgeDis d s
  | .edgeEna d => Sys2Proof.Machine.execEdgeEna d s
  | .put d => Sys2Proof.Machine.execPut d s
  | .reservedA d => Sys2Proof.Machine.execReservedA d s
  | .reservedB d => Sys2Proof.Machine.execReservedB d s
  | .reservedC d => Sys2Proof.Machine.execReservedC d s
  | .reservedD d => Sys2Proof.Machine.execReservedD d s
  | .reservedE d => Sys2Proof.Machine.execReservedE d s
  | .reservedF d => Sys2Proof.Machine.execReservedF d s

end Sys2Proof.Machine
end

