-- ==== Sys2Proof/Machine/Step.lean ====
section
/-! DEFINITION. One step of the machine: one request of the trace performed as one atomic step (00_scope.md R5, R12). -/

namespace Sys2Proof.Machine

/-- The step function of 00_scope.md R12, with the parameters and the request read from the state: parameters outside
their constraints are rejected (93 U9; log entry 2), then the next request of the trace is decoded and performed. -/
def step (s : State) : Host.Outcome State Fault Refusal :=
  if s.params.legal then exec (decode (takeRequest s).1) (takeRequest s).2
  else .refused .illegalParams

/-- The state with one more request in front of the trace, so that the very next step performs it (log entries 3, 12). -/
def State.withFetchWord (s : State) (_nbits w : Nat) : State :=
  { s with requests := BitVec.ofNat 12 w :: s.requests }

end Sys2Proof.Machine
end

