-- ==== Sys2Proof/Machine/Arbiter.lean ====
section
/-! DEFINITION. The order of simultaneous requests, for a block whose request lines are separate (60_exceptions.md R178,
92_eei_decisions.md D20). A trace needs none of it: the step function takes the order the trace gives (log entry 13). -/

namespace Sys2Proof.Machine

/-- The request lines raised in one cycle (60_exceptions.md R178). -/
structure Lines where
  init     : Bool
  edge     : Bool
  tick     : Bool
  /-- The Consumer's operation, if it presents one; CORE does not check which (00_scope.md R6). -/
  consumer : Option RequestWord
  deriving DecidableEq, Repr

/-- Does this request service an edge in this state? "an EDGE operation, or the latched edge released by EDGE_ENA, that
runs `service_edge()`" (00_scope.md R14, 40_decoder.md R100, 43_control.md R162). -/
def servesEdge (w : RequestWord) (s : State) : Bool :=
  s.inited && !s.fault && (decide (opField w = 0x2#4) && s.edgeEn || decide (opField w = 0x8#4) && s.edgePend)

/-- Does any request of a sequence service an edge, each judged in the state the ones before it leave? -/
def anyServesEdge : State → List RequestWord → Bool
  | _, [] => false
  | s, w :: ws =>
    servesEdge w s ||
      match exec (decode w) s with
      | .next t => anyServesEdge t ws
      | .fault _ => false
      | .refused _ => false

/-- The requests of INIT's and EDGE's lines, in the arbiter's order. -/
def Lines.beforeTick (l : Lines) : List RequestWord :=
  (if l.init then [0x100#12] else []) ++ (if l.edge then [0x200#12] else [])

/-- Is an edge serviced in this cycle? Judged by the cycle's own requests other than TICK, in the arbiter's order, so an
edge that the Consumer's EDGE_ENA releases counts, latched earlier or in this very cycle, although EDGE_ENA comes after
TICK. R14 makes it a serviced EDGE; that R178's "coincides" reaches it is the model's reading (DEDUCED, log entry 13). -/
def edgeServiced (s : State) (l : Lines) : Bool := anyServesEdge s (l.beforeTick ++ l.consumer.toList)

/-- "INIT, then EDGE, then TICK, then the Consumer's operation; and a TICK that coincides with a serviced EDGE is
discarded" (60_exceptions.md R178). The TICK discarded is the TICK line's. A TICK word that the Consumer presents, outside
the contract of 00_scope.md R6, which CORE does not check, is "the Consumer's operation" and is kept in its place, also in a
cycle that services an edge: R178 does not say which of the two it is (DESIGN CHOICE, log entry 13). -/
def arbitrate (s : State) (l : Lines) : List RequestWord :=
  l.beforeTick ++ (if l.tick && !edgeServiced s l then [0x300#12] else []) ++ l.consumer.toList

/-- The state with this cycle's requests next in its trace. -/
def State.presentLines (s : State) (l : Lines) : State := { s with requests := arbitrate s l ++ s.requests }

end Sys2Proof.Machine
end

