-- ==== Sys2Proof/Machine/Trace.lean ====
section
/-! DEFINITION. Traces as lists of request words, and the pseudo-operations of 30_encoding.md R85, each with its
expansion. Words are the canonical encodings of R71 (`data = 0x00`, R84). -/

namespace Sys2Proof.Machine.Trace

/-- The word of EDGE (30_encoding.md R71). -/
def edgeWord : RequestWord := 0x200#12

/-- The word of TICK (30_encoding.md R71). -/
def tickWord : RequestWord := 0x300#12

/-- `T(n)`: `n` milliseconds pass. -/
def ticks (n : Nat) : List RequestWord := List.replicate n tickWord

/-- `P(n)`: an edge `n` milliseconds after the previous serviced edge. -/
def pulse (n : Nat) : List RequestWord := ticks n ++ [edgeWord]

/-- `B0`, a data pulse carrying bit 0, or `B1`, carrying bit 1. -/
def bitPulse (b : Bool) : List RequestWord := if b then pulse 2 else pulse 1

/-- `BYTE(b)`: eight data pulses, most significant bit first. -/
def bytePulses (b : Byte) : List RequestWord :=
  [7, 6, 5, 4, 3, 2, 1, 0].flatMap fun k => bitPulse (b.getLsbD k)

/-- `FRAME(w)`: a whole frame of 34 edges. -/
def frame (w : Acc) : List RequestWord :=
  edgeWord :: pulse 9 ++ bytePulses (addrByte w) ++ bytePulses (addrInvertedByte w)
    ++ bytePulses (commandByte w) ++ bytePulses (commandInvertedByte w)

/-- `NECFRAME(a, c)` = `FRAME({a, a ^ 0xFF, c, c ^ 0xFF})`. -/
def necFrame (a c : Byte) : List RequestWord := frame (a ++ (a ^^^ 0xFF) ++ c ++ (c ^^^ 0xFF))

/-- `STOP`: the terminating pulse. -/
def stop : List RequestWord := pulse 1

/-- `RPT1`: the edges of indices 35 and 36. -/
def firstRepeat : List RequestWord := pulse 40 ++ pulse 4

/-- `RPTN`: a later repeat, an odd completion index and the even index after it. -/
def laterRepeat : List RequestWord := pulse 96 ++ pulse 4

/-- `IDLE`: enough silence after a serviced edge for the timeout to fire. -/
def idle (p : Params) : List RequestWord := ticks (p.tTimeout.toNat + 1)

/-- `POLL`: the Consumer's guarded read, `EDGE_DIS ; GET ; EDGE_ENA` (43_control.md R165). -/
def poll : List RequestWord := [0x700#12, 0x400#12, 0x800#12]

end Sys2Proof.Machine.Trace
end

