-- ==== Sys2Proof/Safety.lean ====
section
/-! DEFINITION. The terms claims use: what is observable, the invariants of 10_state.md R38, the unread commands, and
the contract of the environment (00_scope.md R6, 70_reset_and_hazards.md R192 to R198). -/

namespace Sys2Proof.Machine

/-! ### What a run shows -/

/-- "The only things an agent outside CORE can observe": the response word and the two fault outputs (00_scope.md R7). -/
structure Observation where
  response : ResponseWord
  fault    : Bool
  fcode    : BitVec 2
  deriving DecidableEq, Repr

/-- What an agent sees of a state (00_scope.md R7). -/
def observe (s : State) : Observation := { response := responseWord s.resp, fault := s.fault, fcode := s.fcode }

/-! ### The unread commands -/

/-- The slot of the `k`-th unread command, oldest first (10_state.md R38 V9). -/
def unreadSlot (s : State) (k : Nat) : Nat := (s.rd + k) % s.params.slots

/-- The unread commands, oldest first (42_ringbuffer.md R145); `none` would be a slot no PUT has written, which V9 of
10_state.md R38 rules out. -/
def unread (s : State) : List (Option Byte) :=
  (List.range (unreadCount s)).map fun k => Memory.read? s.buf (unreadSlot s k)

/-! ### Invariants -/

/-- "Idle": 00_scope.md R14. -/
abbrev State.idle (s : State) : Prop := s.idx = 0 ∧ s.acc = 0 ∧ s.run = false ∧ s.elapsed = 0

/-- V3 of 10_state.md R38. -/
abbrev State.stoppedIsIdle (s : State) : Prop :=
  s.inited = true → s.run = false → s.idx = 0 ∧ s.acc = 0 ∧ s.elapsed = 0

/-- V5 of 10_state.md R38, its first two clauses. -/
abbrev State.accBounded (s : State) : Prop :=
  (s.idx.toNat ≤ 2 → s.acc = 0) ∧
  (3 ≤ s.idx.toNat → s.idx.toNat ≤ 34 → s.acc.toNat < 2 ^ (s.idx.toNat - 2))

/-- V6 of 10_state.md R38: before INIT every register but the ring's holds its reset value; the ring's do too on CORE's
external port, where no PUT can be presented. -/
abbrev State.inertBeforeInit (s : State) : Prop :=
  s.inited = false →
    s.acc = 0 ∧ s.idx = 0 ∧ s.elapsed = 0 ∧ s.run = false ∧ s.edgeEn = false ∧ s.edgePend = false ∧
    s.fault = false ∧ (s.port = .external → s.wr = 0 ∧ s.rd = 0 ∧ s.buf = [])

/-- V9 of 10_state.md R38: every unread slot has been written. -/
abbrev State.unreadWritten (s : State) : Prop :=
  ∀ k, k < unreadCount s → (Memory.read? s.buf (unreadSlot s k)).isSome = true

/-- The fault code agrees with the fault flag: 0 without a fault, else 1 or 2, "3 never produced" (10_state.md R28,
30_encoding.md R82), and after an overflow "`idx` still holds `IDX_MAX`" (60_exceptions.md R171). -/
abbrev State.faultCoded (s : State) : Prop :=
  (s.fault = false → s.fcode = fcodeNone) ∧
  (s.fault = true → s.fcode = fcodeDoubleInit ∨ s.fcode = fcodeIdxOverflow) ∧
  (s.fcode = fcodeIdxOverflow → s.idx = s.params.idxMax)

/-- The invariants of 10_state.md R38 (V1 to V9) under legal parameters, with what the model adds: storage in canonical
form inside the slots, the fault code's meaning, and a response whose data is 0x00 unless it is valid (30_encoding.md R73). -/
structure State.Inv (s : State) : Prop where
  legal           : s.params.legal = true
  elapsedBounded  : s.elapsed ≤ s.params.tTimeout
  idxBounded      : s.idx ≤ s.params.idxMax
  stoppedIsIdle   : s.stoppedIsIdle
  wrInRange       : s.wr < s.params.slots
  rdInRange       : s.rd < s.params.slots
  accBounded      : s.accBounded
  inertBeforeInit : s.inertBeforeInit
  faultInited     : s.fault = true → s.inited = true
  pendDisabled    : s.edgePend = true → s.edgeEn = false
  unreadWritten   : s.unreadWritten
  bufCanonical    : Memory.wf s.buf
  bufInRange      : ∀ c ∈ s.buf, c.1 < s.params.slots
  faultCoded      : s.faultCoded
  respNull        : s.resp.valid = false → s.resp.data = 0

/-- A state in which an edge is serviced: initialised, not faulted, edge detection enabled (60_exceptions.md R176). -/
abbrev State.takesEdges (s : State) : Prop := s.inited = true ∧ s.fault = false ∧ s.edgeEn = true

/-- A request that services an edge, and the state `u` at the moment of service: EDGE while enabled, at the state itself;
EDGE_ENA with an edge latched, after its own two writes (40_decoder.md R100, 43_control.md R162). -/
abbrev services (i : Instr) (s u : State) : Prop :=
  s.inited = true ∧ s.fault = false ∧
  (((∃ d, i = .edge d) ∧ s.edgeEn = true ∧ u = s) ∨
   ((∃ d, i = .edgeEna d) ∧ s.edgePend = true ∧ u = { s with edgeEn := true, edgePend := false }))

/-- "a designated frame-completion pulse (index 34, or any odd index ≥ 37)", over the number (40_decoder.md R108). -/
abbrev completesFrame (i : Byte) : Prop := i.toNat = 34 ∨ (37 ≤ i.toNat ∧ i.toNat % 2 = 1)

/-- Two states that agree on everything but ring slots holding no unread command (10_state.md R29: what no trace can
tell apart). -/
abbrev agreeButStaleSlots (s t : State) : Prop :=
  t = { s with buf := t.buf } ∧
  ∀ k, k < unreadCount s → Memory.read? s.buf (unreadSlot s k) = Memory.read? t.buf (unreadSlot s k)

/-! ### The environment's contract: predicates on traces, never a guard -/

/-- The agents of 00_scope.md R6. -/
inductive Agent where
  | edgeSource | tickSource | consumer | platform
  deriving DecidableEq, Repr

/-- Which operations an agent presents (00_scope.md R6, 30_encoding.md R71, where NOP is any agent's); "CORE does not
check" it (log entry 18). -/
def Agent.presents (a : Agent) : Instr → Bool
  | .nop _ => true
  | .init _ => a = .platform
  | .edge _ => a = .edgeSource
  | .tick _ => a = .tickSource
  | .get _ => a = .consumer
  | .empty _ => a = .consumer
  | .full _ => a = .consumer
  | .edgeDis _ => a = .consumer
  | .edgeEna _ => a = .consumer
  | .put _ => false
  | .reservedA _ => false
  | .reservedB _ => false
  | .reservedC _ => false
  | .reservedD _ => false
  | .reservedE _ => false
  | .reservedF _ => false

/-- How often a trace presents INIT. -/
def initCount (ws : List RequestWord) : Nat := ws.countP fun w => decide (opField w = 0x1#4)

/-- INIT exactly once, and first (70_reset_and_hazards.md R192, R198). -/
def initOnceFirst : List RequestWord → Bool
  | [] => false
  | w :: ws => decide (opField w = 0x1#4) && decide (initCount ws = 0)

/-- Every disable window is closed and holds at most one edge (70_reset_and_hazards.md R193, R196; 43_control.md R165).
`opened` is the number of edges seen in the open window, if one is open. -/
def windowsBrief : Option Nat → List RequestWord → Bool
  | opened, [] => opened.isNone
  | opened, w :: ws =>
    if opField w = 0x7#4 then windowsBrief (some (opened.getD 0)) ws
    else if opField w = 0x8#4 then windowsBrief none ws
    else if opField w = 0x2#4 then
      match opened with
      | none => windowsBrief none ws
      | some n => decide (n = 0) && windowsBrief (some (n + 1)) ws
    else windowsBrief opened ws

end Sys2Proof.Machine
end

