-- ==== Sys2Proof/Certificates/Slice0/Obligations.lean ====
section
/-! DEFINITION. The statements for the provers. Each docstring names the rule of spec/ it formalises; `op` numbers are
those of 30_encoding.md R71. A statement about a next state that has no other premise holds in every state, reachable or
not. -/

open Sys2Proof Sys2Proof.Machine

/-! ### Reset, the step, the encoding -/

/-- 10_state.md R39: power-on reset, whatever the parameters: every register of R20 at 0, and no ring slot with a value. -/
def Obligations.ResetPutsEveryRegisterAtItsResetValue : Prop :=
  ∀ s : State, (s = State.reset ∨ ∃ p : Params, s = State.resetWith p) →
    s.acc = 0 ∧ s.idx = 0 ∧ s.elapsed = 0 ∧ s.run = false ∧ s.edgeEn = false ∧ s.edgePend = false ∧
    s.inited = false ∧ s.fault = false ∧ s.fcode = 0 ∧ s.wr = 0 ∧ s.rd = 0 ∧
    ∀ a, Memory.read? s.buf a = none

/-- The invariants of 10_state.md R38 hold at reset, at `State.reset` (whose parameters are the model's choice, log entry 1)
and under every other legal choice of the parameters. -/
def Obligations.ResetMeetsTheInvariants : Prop :=
  State.reset.Inv ∧ ∀ p : Params, p.legal = true → (State.resetWith p).params = p ∧ (State.resetWith p).Inv

/-- 10_state.md R38: every step keeps the invariants V1 to V9, canonical storage, and what `fcode` and a response mean. -/
def Obligations.StepKeepsTheInvariants : Prop :=
  ∀ s s' : State, s.Inv → step s = .next s' → s'.Inv

/-- 00_scope.md R12 and 20_memory.md R62: under the invariants a step always completes, so no fault and no refusal of
the model is ever met. -/
def Obligations.StepAlwaysCompletes : Prop :=
  ∀ s : State, s.Inv → ∃ s', step s = .next s'

/-- A step performs the decoded request in front of the trace, which it takes off; with an empty trace it performs NOP,
an idle slot of the port (the model's reading, log entry 4). -/
def Obligations.StepPerformsTheDecodedRequest : Prop :=
  (∀ (s : State) (w : RequestWord) (ws : List RequestWord), s.params.legal = true → s.requests = w :: ws →
    step s = exec (decode w) { s with requests := ws }) ∧
  (∀ s : State, s.params.legal = true → s.requests = [] → step s = exec (.nop 0) s)

/-- 93_implementation_defined.md U9, 00_scope.md R8: parameters outside their constraints are rejected. -/
def Obligations.StepRejectsIllegalParameters : Prop :=
  ∀ s : State, (s.params.slots < 2 ∨ s.params.tTimeout.toNat < 110 ∨ s.params.idxMax.toNat < 37) →
    step s = .refused .illegalParams

/-- Words written out from 30_encoding.md R71, one per family and port peculiarity, decode to what they stand for. -/
def Obligations.TableWordsDecode : Prop :=
  decode 0b0000_00000000#12 = .nop 0 ∧ decode 0b0001_00000000#12 = .init 0 ∧
  decode 0b0010_00000000#12 = .edge 0 ∧ decode 0b0010_11111111#12 = .edge 0xFF ∧
  decode 0b0011_00000000#12 = .tick 0 ∧ decode 0b0100_00000000#12 = .get 0 ∧
  decode 0b1000_00000000#12 = .edgeEna 0 ∧ decode 0b1001_10100101#12 = .put 0xA5 ∧
  decode 0b1010_00000000#12 = .reservedA 0 ∧ decode 0b1111_11111111#12 = .reservedF 0xFF

/-- Decode and encode agree in both directions: no bit of a request word is dropped. -/
def Obligations.DecodeAndEncodeAgree : Prop :=
  (∀ i : Instr, decode (encode i) = i) ∧ (∀ w : RequestWord, encode (decode w) = w)

/-- 30_encoding.md R71: `word & mask == match` with mask 0xF00 selects the operation, and the low byte is its data. -/
def Obligations.MaskedWordSelectsTheOperation : Prop :=
  ∀ w : RequestWord, w &&& 0xF00#12 = (decode w).op ++ 0x00#8 ∧ w &&& 0x0FF#12 = 0x0#4 ++ (decode w).data

/-- 30_encoding.md R70: `data` is "used only by PUT; ignored (any value accepted, no effect) by every other operation". -/
def Obligations.IgnoredDataHasNoEffect : Prop :=
  ∀ (w v : RequestWord) (s : State), w &&& 0xF00#12 = v &&& 0xF00#12 → w &&& 0xF00#12 ≠ 0x900#12 →
    exec (decode w) s = exec (decode v) s

/-- Every request completes in every state whose cursors are in range (20_memory.md R62, 10_state.md R38 V4). -/
def Obligations.EveryRequestCompletes : Prop :=
  ∀ (i : Instr) (s : State), s.wr < s.params.slots → s.rd < s.params.slots → ∃ t, exec i s = .next t

/-! ### Control operations -/

/-- 43_control.md R163: NOP, in any state. -/
def Obligations.NopChangesNothing : Prop :=
  decode 0x000#12 = .nop 0 ∧
  ∀ (d : Byte) (s : State), exec (.nop d) s = .next { s with resp := { err := false, valid := false, data := 0 } }

/-- 43_control.md R164: the reserved codes, in any state, and code 0x9 on CORE's external port. -/
def Obligations.ReservedCodesAnswerErr : Prop :=
  ∀ (d : Byte) (s t : State), t = { s with resp := { err := true, valid := false, data := 0 } } →
    responseWord t.resp = 0x200#10 ∧
    exec (.reservedA d) s = .next t ∧ exec (.reservedB d) s = .next t ∧ exec (.reservedC d) s = .next t ∧
    exec (.reservedD d) s = .next t ∧ exec (.reservedE d) s = .next t ∧ exec (.reservedF d) s = .next t ∧
    (s.port = .external → exec (.put d) s = .next t)

/-- 43_control.md R160: INIT, in each of its three cases. -/
def Obligations.InitArmsOnceThenFaults : Prop :=
  decode 0x100#12 = .init 0 ∧
  ∀ (d : Byte) (s : State),
    (s.fault = true → exec (.init d) s = .next { s with resp := { err := false, valid := false, data := 0 } }) ∧
    (s.fault = false → s.inited = true → exec (.init d) s =
      .next { s with fault := true, fcode := 1, resp := { err := false, valid := false, data := 0 } }) ∧
    (s.fault = false → s.inited = false → exec (.init d) s =
      .next { s with
        inited := true, edgeEn := true, edgePend := false, run := true, elapsed := 0, idx := 0, acc := 0
        wr := 0, rd := 0, resp := { err := false, valid := false, data := 0 } })

/-- 70_reset_and_hazards.md R191: the state after `reset ; INIT`, for every parameter value. -/
def Obligations.ResetThenInitIsArmed : Prop :=
  ∀ (d : Byte) (p : Params), exec (.init d) (State.resetWith p) =
    .next { State.resetWith p with inited := true, edgeEn := true, run := true }

/-- 43_control.md R161: EDGE_DIS. -/
def Obligations.EdgeDisDisables : Prop :=
  decode 0x700#12 = .edgeDis 0 ∧
  ∀ (d : Byte) (s : State),
    ((s.fault = true ∨ s.inited = false) →
      exec (.edgeDis d) s = .next { s with resp := { err := false, valid := false, data := 0 } }) ∧
    (s.fault = false → s.inited = true →
      exec (.edgeDis d) s = .next { s with edgeEn := false, resp := { err := false, valid := false, data := 0 } })

/-- 43_control.md R162: EDGE_ENA; a latched edge is serviced in the same step, exactly as an EDGE presented to the state
with the enable set and the latch cleared would be. -/
def Obligations.EdgeEnaServicesALatchedEdge : Prop :=
  decode 0x800#12 = .edgeEna 0 ∧
  ∀ (d e : Byte) (s : State),
    ((s.fault = true ∨ s.inited = false) →
      exec (.edgeEna d) s = .next { s with resp := { err := false, valid := false, data := 0 } }) ∧
    (s.fault = false → s.inited = true → s.edgePend = false →
      exec (.edgeEna d) s = .next { s with edgeEn := true, resp := { err := false, valid := false, data := 0 } }) ∧
    (s.fault = false → s.inited = true → s.edgePend = true →
      exec (.edgeEna d) s = exec (.edge e) { s with edgeEn := true, edgePend := false })

/-- 43_control.md R165: the guarded read `EDGE_DIS ; GET ; EDGE_ENA` with no edge in its window leaves what GET alone
leaves (the response read in between is GET's). -/
def Obligations.GuardedReadLeavesWhatGetLeaves : Prop :=
  ∀ (s t : State) (ws : List RequestWord), s.params.legal = true → s.takesEdges → s.edgePend = false →
    exec (.get 0) { s with requests := ws } = .next t →
    Host.Core.run Sys2Proof.core 3 { s with requests := Trace.poll ++ ws } =
      .next { t with resp := { err := false, valid := false, data := 0 } }

/-! ### The decoder -/

/-- 40_decoder.md R104, over the numbers the words stand for. -/
def Obligations.WindowIsTheValidityTable : Prop :=
  ∀ i e : Byte, window i e = true ↔
    (i.toNat = 1 ∧ e.toNat = 0) ∨ (i.toNat = 2 ∧ e.toNat < 10) ∨
    (3 ≤ i.toNat ∧ i.toNat ≤ 34 ∧ e.toNat < 5) ∨ (i.toNat = 35 ∧ e.toNat < 50) ∨ (i.toNat = 36 ∧ e.toNat < 5) ∨
    (37 ≤ i.toNat ∧ i.toNat % 2 = 1 ∧ e.toNat < 110) ∨ (37 ≤ i.toNat ∧ i.toNat % 2 = 0 ∧ e.toNat < 5)

/-- 40_decoder.md R100, the cases in which an EDGE is not serviced: inert when faulted or before INIT, latched when
disabled, and merged into an edge already latched. -/
def Obligations.UnservicedEdgeIsInertOrLatched : Prop :=
  ∀ (d : Byte) (s : State),
    ((s.fault = true ∨ s.inited = false) →
      exec (.edge d) s = .next { s with resp := { err := false, valid := false, data := 0 } }) ∧
    (s.fault = false → s.inited = true → s.edgeEn = false →
      exec (.edge d) s = .next { s with edgePend := true, resp := { err := false, valid := false, data := 0 } })

/-- 40_decoder.md R102: an edge to be serviced at `IDX_MAX` is the fatal overflow, whatever the elapsed time, and nothing
else changes; `u` is the state at the moment of service, after EDGE_ENA's own two writes. -/
def Obligations.ServicedEdgeAtIdxMaxOverflows : Prop :=
  ∀ (i : Instr) (s u : State), services i s u → u.idx = u.params.idxMax →
    exec i s = .next { u with fault := true, fcode := 2, resp := { err := false, valid := false, data := 0 } }

/-- 40_decoder.md R105: resync on an invalid pulse, at every index, with the timer restarted and nothing else changed. -/
def Obligations.InvalidPulseResyncs : Prop :=
  ∀ (i : Instr) (s u : State), services i s u → u.idx ≠ u.params.idxMax → window (u.idx + 1#8) u.elapsed = false →
    exec i s =
      .next { u with idx := 1, acc := 0, elapsed := 0, run := true
                     resp := { err := false, valid := false, data := 0 } }

/-- 40_decoder.md R107, with the advance of R106: a valid pulse advances `idx` by exactly one, shifts `{acc[30:0], b}` in when its new index
is in 3 .. 34 and leaves `acc` alone otherwise, and restarts the timer; away from completion nothing else changes, and a
completion pulse changes the ring besides (its write cursor in range, R38 V4). -/
def Obligations.ValidPulseAdvancesAndShifts : Prop :=
  ∀ (i : Instr) (s u v : State), services i s u → u.idx ≠ u.params.idxMax → window (u.idx + 1#8) u.elapsed = true →
    v = { u with
      idx := u.idx + 1
      acc := if 3 ≤ (u.idx + 1#8).toNat ∧ (u.idx + 1#8).toNat ≤ 34
        then u.acc.extractLsb' 0 31 ++ BitVec.ofBool (decide (2 ≤ u.elapsed.toNat)) else u.acc
      elapsed := 0, run := true, resp := { err := false, valid := false, data := 0 } } →
    (¬ completesFrame (u.idx + 1#8) → exec i s = .next v) ∧
    (completesFrame (u.idx + 1#8) → u.wr < u.params.slots →
      ∃ t, exec i s = .next t ∧ t = { v with buf := t.buf, wr := t.wr, rd := t.rd })

/-- 40_decoder.md R108: a valid completion pulse pushes `acc'[15:8]`, the accumulator after this pulse's own shift: the
byte goes to the slot of the write cursor and to no other, the oldest command is evicted when the buffer is full; and no
other serviced edge pushes anything, whatever its index. -/
def Obligations.CompletionPulsePushesTheCommandByte : Prop :=
  (∀ (i : Instr) (s u : State) (a : Acc), services i s u → u.idx ≠ u.params.idxMax →
    window (u.idx + 1#8) u.elapsed = true → completesFrame (u.idx + 1#8) → u.wr < u.params.slots →
    a = (if (u.idx + 1#8).toNat = 34
      then u.acc.extractLsb' 0 31 ++ BitVec.ofBool (decide (2 ≤ u.elapsed.toNat)) else u.acc) →
    ∃ t, exec i s = .next t ∧ t.acc = a ∧
      t.wr = (u.wr + 1) % u.params.slots ∧
      t.rd = (if (u.wr + 1) % u.params.slots = u.rd then (u.rd + 1) % u.params.slots else u.rd) ∧
      Memory.read? t.buf u.wr = some (a.extractLsb' 8 8) ∧
      ∀ x, x ≠ u.wr → Memory.read? t.buf x = Memory.read? u.buf x) ∧
  (∀ (i : Instr) (s u t : State), services i s u → exec i s = .next t →
    ¬ (u.idx ≠ u.params.idxMax ∧ window (u.idx + 1#8) u.elapsed = true ∧ completesFrame (u.idx + 1#8)) →
    t.buf = u.buf ∧ t.wr = u.wr ∧ t.rd = u.rd)

/-- The frame of EDGE and EDGE_ENA, for every form: what they never touch, and that ring storage changes at most in the
slot of the write cursor, and the ring not at all unless a valid completion pulse is serviced: an edge that is latched,
inert or overflows, and an EDGE_ENA with nothing latched, leave it alone (40_decoder.md R100 to R109). -/
def Obligations.EdgeOperationsFrame : Prop :=
  ∀ (i : Instr) (s t : State), (i.op = 0x2#4 ∨ i.op = 0x8#4) → exec i s = .next t →
    t.params = s.params ∧ t.port = s.port ∧ t.requests = s.requests ∧ t.inited = s.inited ∧
    (i.op = 0x2#4 → t.edgeEn = s.edgeEn) ∧
    (∀ x, x ≠ s.wr → Memory.read? t.buf x = Memory.read? s.buf x) ∧
    (¬ (∃ u, services i s u ∧ u.idx ≠ u.params.idxMax ∧ window (u.idx + 1#8) u.elapsed = true ∧
        completesFrame (u.idx + 1#8)) →
      t.buf = s.buf ∧ t.wr = s.wr ∧ t.rd = s.rd)

/-- 40_decoder.md R110: at index 0 the elapsed sample makes no difference to any later behaviour: the first edge after
idle gives one state whatever `elapsed` was. -/
def Obligations.FirstEdgeAfterIdleIgnoresElapsed : Prop :=
  ∀ (d e e' : Byte) (s : State), s.takesEdges → s.idx = 0 → s.acc = 0 → s.params.idxMax ≠ 0 →
    exec (.edge d) { s with elapsed := e } = exec (.edge d) { s with elapsed := e' }

/-- 40_decoder.md R111 and the last clause of 10_state.md R38 V5: no request that leaves `idx` at 35 or above changes the
accumulator, so every later completion pushes the byte that index 34 pushed. -/
def Obligations.AccumulatorStaysPastTheFrame : Prop :=
  ∀ (i : Instr) (s t : State), exec i s = .next t → 35 ≤ t.idx.toNat → t.acc = s.acc

/-- 40_decoder.md R118 and R106 ("by nothing else"): every movement of the pulse index. -/
def Obligations.IdxMovesOnlyAsListed : Prop :=
  ∀ (i : Instr) (s t : State), exec i s = .next t →
    t.idx = s.idx ∨
    (t.idx = s.idx + 1#8 ∧ s.idx ≠ s.params.idxMax ∧ window (s.idx + 1#8) s.elapsed = true ∧
      (i.op = 0x2#4 ∧ s.edgeEn = true ∨ i.op = 0x8#4 ∧ s.edgePend = true)) ∨
    (t.idx = 1 ∧ s.idx ≠ s.params.idxMax ∧ window (s.idx + 1#8) s.elapsed = false ∧
      (i.op = 0x2#4 ∧ s.edgeEn = true ∨ i.op = 0x8#4 ∧ s.edgePend = true)) ∨
    (t.idx = 0 ∧ i.op = 0x3#4 ∧ s.run = true ∧ s.params.tTimeout ≤ s.elapsed) ∨
    (t.idx = 0 ∧ i.op = 0x1#4 ∧ s.inited = false)

/-- 40_decoder.md R113: frame acceptance. From idle, any number `n` of TICKs, then 34 edges whose gaps are inside their
windows, end at index 34 with the bits in order, the first highest, and one PUT of byte 1. -/
def Obligations.FrameIsAccepted : Prop :=
  ∀ (s : State) (n sync : Nat) (gaps : List Nat) (ws : List RequestWord),
    s.params.legal = true → s.takesEdges → s.idx = 0 → s.acc = 0 → s.wr < s.params.slots →
    sync < 10 → gaps.length = 32 → (∀ g ∈ gaps, g < 5) →
    ∃ t, Host.Core.run Sys2Proof.core
        (Trace.pulse n ++ Trace.pulse sync ++ gaps.flatMap Trace.pulse).length
        { s with requests := Trace.pulse n ++ Trace.pulse sync ++ gaps.flatMap Trace.pulse ++ ws } = .next t ∧
      t.requests = ws ∧ t.idx = 34 ∧ t.fault = false ∧ t.elapsed = 0 ∧ t.run = true ∧
      (∀ k, k < 32 → t.acc.getLsbD (31 - k) = decide (2 ≤ gaps.getD k 0)) ∧
      t.wr = (s.wr + 1) % s.params.slots ∧
      t.rd = (if (s.wr + 1) % s.params.slots = s.rd then (s.rd + 1) % s.params.slots else s.rd) ∧
      Memory.read? t.buf s.wr = some (t.acc.extractLsb' 8 8) ∧
      ∀ x, x ≠ s.wr → Memory.read? t.buf x = Memory.read? s.buf x

/-- 30_encoding.md R85 and R75: after `NECFRAME(a, c)` from idle with an empty buffer, GET returns `c`. -/
def Obligations.NecFrameDeliversItsCommand : Prop :=
  ∀ (a c : Byte) (s : State) (ws : List RequestWord),
    s.params.legal = true → s.takesEdges → s.idx = 0 → s.acc = 0 → s.wr < s.params.slots → s.rd = s.wr →
    ∃ t, Host.Core.run Sys2Proof.core ((Trace.necFrame a c).length + 1)
        { s with requests := Trace.necFrame a c ++ 0x400#12 :: ws } = .next t ∧
      t.resp = { err := false, valid := true, data := c } ∧ t.wr = t.rd ∧ t.requests = ws

/-! ### The timeout supervisor -/

/-- 41_timeout.md R130 and R131: TICK, in each of its cases. -/
def Obligations.TickCountsOrTimesOut : Prop :=
  decode 0x300#12 = .tick 0 ∧
  ∀ (d : Byte) (s : State),
    ((s.fault = true ∨ s.inited = false ∨ s.run = false) →
      exec (.tick d) s = .next { s with resp := { err := false, valid := false, data := 0 } }) ∧
    (s.fault = false → s.inited = true → s.run = true → s.elapsed.toNat < s.params.tTimeout.toNat →
      exec (.tick d) s =
        .next { s with elapsed := s.elapsed + 1#8, resp := { err := false, valid := false, data := 0 } }) ∧
    (s.fault = false → s.inited = true → s.run = true → s.params.tTimeout.toNat ≤ s.elapsed.toNat →
      exec (.tick d) s =
        .next { s with run := false, idx := 0, acc := 0, elapsed := 0
                       resp := { err := false, valid := false, data := 0 } })

/-- 41_timeout.md R133: TICK is gated by `run` and not by `edge_en` (its guards, R130, apart), and never touches the ring,
the edge bits, `inited` or `fault`. -/
def Obligations.TickGatingAndFrame : Prop :=
  ∀ (d : Byte) (s : State), ∃ t, exec (.tick d) s = .next t ∧
    (s.run = false → t = { s with resp := { err := false, valid := false, data := 0 } }) ∧
    t = { s with acc := t.acc, idx := t.idx, elapsed := t.elapsed, run := t.run
                 resp := { err := false, valid := false, data := 0 } } ∧
    ∀ b : Bool, exec (.tick d) { s with edgeEn := b } = .next { t with edgeEn := b }

/-- 41_timeout.md R132 and R135: with no edge serviced, `T_TIMEOUT - elapsed` TICKs only count, and one more reaches idle,
leaving the ring and the edge bits as they were. -/
def Obligations.SilenceReachesIdle : Prop :=
  ∀ (s : State) (ws : List RequestWord), s.params.legal = true → s.inited = true → s.fault = false →
    s.run = true → s.elapsed ≤ s.params.tTimeout →
    (∀ k, 1 ≤ k → k ≤ s.params.tTimeout.toNat - s.elapsed.toNat →
      Host.Core.run Sys2Proof.core k { s with requests := Trace.ticks k ++ ws } =
        .next { s with requests := ws, elapsed := s.elapsed + BitVec.ofNat 8 k
                       resp := { err := false, valid := false, data := 0 } }) ∧
    Host.Core.run Sys2Proof.core (s.params.tTimeout.toNat + 1 - s.elapsed.toNat)
        { s with requests := Trace.ticks (s.params.tTimeout.toNat + 1 - s.elapsed.toNat) ++ ws } =
      .next { s with requests := ws, run := false, idx := 0, acc := 0, elapsed := 0
                     resp := { err := false, valid := false, data := 0 } }

/-- 41_timeout.md R134: away from `IDX_MAX`, an edge right after the timeout gives the state that the same edge would
have given had the timeout not fired. -/
def Obligations.TimeoutIsInvisibleAwayFromIdxMax : Prop :=
  ∀ (d e : Byte) (s t : State), s.params.legal = true → s.takesEdges → s.run = true →
    s.elapsed = s.params.tTimeout → s.idx < s.params.idxMax →
    exec (.tick d) s = .next t → exec (.edge e) t = exec (.edge e) s

/-! ### The ring buffer -/

/-- 42_ringbuffer.md R140: PUT on the ring buffer's own port: stores at the write cursor and in no other slot, advances
it, and when full advances the read cursor as well; nothing else changes. That it is performed before INIT too, and that
its response word is the null response, is the model's reading (log entry 7). -/
def Obligations.PutStoresAtTheWriteCursor : Prop :=
  ∀ (b : Byte) (s : State), s.port = .ring → s.fault = false → s.wr < s.params.slots →
    ∃ t, exec (.put b) s = .next t ∧
      t = { s with
        buf := t.buf
        wr := (s.wr + 1) % s.params.slots
        rd := if (s.wr + 1) % s.params.slots = s.rd then (s.rd + 1) % s.params.slots else s.rd
        resp := { err := false, valid := false, data := 0 } } ∧
      Memory.read? t.buf s.wr = some b ∧ ∀ x, x ≠ s.wr → Memory.read? t.buf x = Memory.read? s.buf x

/-- 42_ringbuffer.md R147: on CORE's external port code 0x9 is reserved, refused with `err` in any state, and no request
that services no edge stores into the ring or moves its write cursor, INIT's clearing of the cursor apart. -/
def Obligations.ExternalPutIsRefused : Prop :=
  (∀ (b : Byte) (s : State), s.port = .external →
    exec (.put b) s = .next { s with resp := { err := true, valid := false, data := 0 } }) ∧
  ∀ (i : Instr) (s t : State), s.port = .external → exec i s = .next t → ¬ (∃ u, services i s u) →
    t.buf = s.buf ∧ (i.op ≠ 0x1#4 → t.wr = s.wr)

/-- 42_ringbuffer.md R141: GET, in each of its cases; the byte of a slot that no PUT has written is some byte. -/
def Obligations.GetTakesTheOldestOrNone : Prop :=
  decode 0x400#12 = .get 0 ∧
  ∀ (d : Byte) (s : State),
    ((s.fault = true ∨ s.wr = s.rd) →
      exec (.get d) s = .next { s with resp := { err := false, valid := false, data := 0 } }) ∧
    (s.fault = false → s.wr ≠ s.rd → s.rd < s.params.slots →
      ∃ v : Byte, exec (.get d) s =
          .next { s with rd := (s.rd + 1) % s.params.slots, resp := { err := false, valid := true, data := v } } ∧
        ∀ b, Memory.read? s.buf s.rd = some b → v = b)

/-- The model's own stops (log entry 9) and its own choice for a faulted ring port (log entry 7): an access outside the
slots faults, which no trace reaches, and PUT on the ring's own port is frozen while faulted. -/
def Obligations.RingAccessOutsideItsSlotsStops : Prop :=
  ∀ (d : Byte) (s : State),
    (s.fault = false → s.wr ≠ s.rd → s.params.slots ≤ s.rd → exec (.get d) s = .fault .noSuchSlot) ∧
    (s.port = .ring → s.fault = false → s.params.slots ≤ s.wr → exec (.put d) s = .fault .noSuchSlot) ∧
    (s.port = .ring → s.fault = true →
      exec (.put d) s = .next { s with resp := { err := false, valid := false, data := 0 } })

/-- 42_ringbuffer.md R142 and R143: EMPTY and FULL are pure predicates on the cursors, in any state, also when faulted or
before INIT. -/
def Obligations.EmptyAndFullArePurePredicates : Prop :=
  decode 0x500#12 = .empty 0 ∧ decode 0x600#12 = .full 0 ∧
  ∀ (d : Byte) (s : State),
    exec (.empty d) s = .next { s with
      resp := { err := false, valid := true, data := if s.wr = s.rd then 0x01 else 0x00 } } ∧
    exec (.full d) s = .next { s with
      resp := { err := false, valid := true, data := if (s.wr + 1) % s.params.slots = s.rd then 0x01 else 0x00 } }

/-- 10_state.md R32 and 42_ringbuffer.md R144: the count, and what the predicates say of it. -/
def Obligations.CountBoundsAndPredicates : Prop :=
  ∀ s : State, 2 ≤ s.params.slots → s.wr < s.params.slots → s.rd < s.params.slots →
    unreadCount s ≤ s.params.slots - 1 ∧ (unread s).length = unreadCount s ∧
    (isEmpty s = true ↔ unreadCount s = 0) ∧ (isFull s = true ↔ unreadCount s = s.params.slots - 1) ∧
    ¬ (isEmpty s = true ∧ isFull s = true)

/-- 42_ringbuffer.md R144 and R145, refinement of the producer's side to a bounded drop-oldest queue: PUT on the ring's
own port (before INIT too: the model's reading, log entry 7), and a serviced completion pulse, append their byte to the
unread commands, and the oldest of them goes when there were `N-1`. -/
def Obligations.PushEnqueuesDroppingTheOldest : Prop :=
  ∀ s : State, 2 ≤ s.params.slots → s.wr < s.params.slots → s.rd < s.params.slots → s.fault = false →
    (∀ b : Byte, s.port = .ring → ∃ t, exec (.put b) s = .next t ∧
      unread t = (if unreadCount s = s.params.slots - 1 then (unread s).tail else unread s) ++ [some b]) ∧
    (∀ d : Byte, s.inited = true → s.edgeEn = true → s.idx ≠ s.params.idxMax →
      window (s.idx + 1#8) s.elapsed = true → completesFrame (s.idx + 1#8) → ∃ t, exec (.edge d) s = .next t ∧
      unread t = (if unreadCount s = s.params.slots - 1 then (unread s).tail else unread s)
        ++ [some (commandByte t.acc)])

/-- 42_ringbuffer.md R144 and R146, refinement of the consumer's side: a GET answers the head of the unread commands and
leaves the rest, in order; with none unread it answers NONE and leaves none. -/
def Obligations.GetDequeuesTheOldest : Prop :=
  ∀ (d : Byte) (s : State), 2 ≤ s.params.slots → s.wr < s.params.slots → s.rd < s.params.slots → s.fault = false →
    (unread s = [] → ∃ t, exec (.get d) s = .next t ∧ unread t = [] ∧
      t.resp = { err := false, valid := false, data := 0 }) ∧
    (∀ (v : Option Byte) (vs : List (Option Byte)), unread s = v :: vs → ∃ t, exec (.get d) s = .next t ∧
      unread t = vs ∧ t.resp.err = false ∧ t.resp.valid = true ∧ ∀ b, v = some b → t.resp.data = b)

/-- 42_ringbuffer.md R144: "nothing else changes it except INIT": every request that neither pushes nor takes keeps the
unread commands, whichever of its forms it is: a code that never does either; an EDGE or EDGE_ENA that services no valid
completion pulse; a GET that is faulted or finds the ring empty; a PUT that is refused or frozen (log entry 7); an INIT
that is ignored or faults. The first INIT leaves none. -/
def Obligations.OtherRequestsKeepTheUnreadCommands : Prop :=
  ∀ (i : Instr) (s t : State), exec i s = .next t →
    (i.op ∉ [0x1#4, 0x2#4, 0x4#4, 0x8#4, 0x9#4] → unread t = unread s) ∧
    (i.op = 0x2#4 ∨ i.op = 0x8#4 →
      ¬ (∃ u, services i s u ∧ u.idx ≠ u.params.idxMax ∧ window (u.idx + 1#8) u.elapsed = true ∧
          completesFrame (u.idx + 1#8)) → unread t = unread s) ∧
    (i.op = 0x4#4 → s.fault = true ∨ s.wr = s.rd → unread t = unread s) ∧
    (i.op = 0x9#4 → s.port = .external ∨ s.fault = true → unread t = unread s) ∧
    (i.op = 0x1#4 → s.inited = true ∨ s.fault = true → unread t = unread s) ∧
    (i.op = 0x1#4 → s.inited = false → s.fault = false → 2 ≤ s.params.slots → unread t = [])

/-- 10_state.md R29: "no trace can observe an unwritten slot". Two states that differ only in slots holding no unread
command answer every request alike and go on differing only there. -/
def Obligations.StaleSlotsAreUnobservable : Prop :=
  ∀ (i : Instr) (s t s' : State), 2 ≤ s.params.slots → s.wr < s.params.slots → s.rd < s.params.slots →
    agreeButStaleSlots s t → exec i s = .next s' →
    ∃ t', exec i t = .next t' ∧ agreeButStaleSlots s' t' ∧ observe t' = observe s'

/-! ### Faults -/

/-- 60_exceptions.md R171: which requests raise a fault, when, and with what code; no other request does. -/
def Obligations.FaultsAreRaisedExactlyWhereNamed : Prop :=
  ∀ (i : Instr) (s t : State), s.fault = false → exec i s = .next t →
    (t.fault = true ↔
      (i.op = 0x1#4 ∧ s.inited = true) ∨
      (s.inited = true ∧ s.idx = s.params.idxMax ∧
        (i.op = 0x2#4 ∧ s.edgeEn = true ∨ i.op = 0x8#4 ∧ s.edgePend = true))) ∧
    (t.fault = true → i.op = 0x1#4 → t.fcode = 1) ∧
    (t.fault = true → i.op ≠ 0x1#4 → t.fcode = 2 ∧ t.idx = s.params.idxMax)

/-- 60_exceptions.md R172: the faulting operation changes the two fault registers and nothing else, but for EDGE_ENA's two
writes that come before `service_edge()`; its response is the null response. -/
def Obligations.FaultEntryIsPrecise : Prop :=
  ∀ (i : Instr) (s t : State), s.fault = false → exec i s = .next t → t.fault = true →
    t = { s with
      fault := true, fcode := t.fcode, resp := { err := false, valid := false, data := 0 }
      edgeEn := if i.op = 0x8#4 then true else s.edgeEn
      edgePend := if i.op = 0x8#4 then false else s.edgePend }

/-- 60_exceptions.md R173: while faulted the state is frozen, request by request. -/
def Obligations.FaultFreezesTheState : Prop :=
  ∀ (i : Instr) (s : State), s.fault = true →
    ∃ r : Response, exec i s = .next { s with resp := r } ∧
      (i.op ∈ [0x0#4, 0x1#4, 0x2#4, 0x3#4, 0x4#4, 0x7#4, 0x8#4] → responseWord r = 0x000#10) ∧
      (i.op = 0x5#4 → responseWord r = if s.wr = s.rd then 0x101#10 else 0x100#10) ∧
      (i.op = 0x6#4 → responseWord r = if (s.wr + 1) % s.params.slots = s.rd then 0x101#10 else 0x100#10) ∧
      (0xA#4 ≤ i.op → responseWord r = 0x200#10)

/-- 60_exceptions.md R174 and 10_state.md R27: no request clears `fault` or changes its code, and none clears `inited`. -/
def Obligations.FaultAndInitedAreSticky : Prop :=
  ∀ (i : Instr) (s t : State), exec i s = .next t →
    (s.fault = true → t.fault = true ∧ t.fcode = s.fcode) ∧ (s.inited = true → t.inited = true)

/-- 43_control.md R166: before INIT, with the cursors at their reset values and legal parameters, INIT is performed and no
other request of the external port changes any state; GET, EMPTY, FULL answer NONE, 1, 0. -/
def Obligations.InertBeforeInit : Prop :=
  ∀ (i : Instr) (s : State), s.params.legal = true → s.port = .external → s.inited = false → s.wr = 0 → s.rd = 0 →
    (i.op = 0x1#4 → s.fault = false →
      ∃ t, exec i s = .next t ∧ t.inited = true ∧ t.edgeEn = true ∧ t.run = true) ∧
    (i.op ≠ 0x1#4 →
      ∃ r : Response, exec i s = .next { s with resp := r } ∧
        (i.op ∈ [0x0#4, 0x2#4, 0x3#4, 0x4#4, 0x7#4, 0x8#4] → responseWord r = 0x000#10) ∧
        (i.op = 0x5#4 → responseWord r = 0x101#10) ∧ (i.op = 0x6#4 → responseWord r = 0x100#10) ∧
        (0x9#4 ≤ i.op → responseWord r = 0x200#10))

/-! ### Rules about the whole machine -/

/-- 30_encoding.md R73: every request that is performed returns one response word, `err` in bit 9 (set exactly when the
code is reserved on this port), `valid` in bit 8, `data` in bits 7:0 and 0x00 when not valid. -/
def Obligations.EveryRequestReturnsAResponseWord : Prop :=
  ∀ (i : Instr) (s t : State), exec i s = .next t →
    ((responseWord t.resp).getLsbD 9 = true ↔ (0xA#4 ≤ i.op ∨ (i.op = 0x9#4 ∧ s.port = .external))) ∧
    ((responseWord t.resp).getLsbD 8 = true ↔
      (i.op = 0x5#4 ∨ i.op = 0x6#4 ∨ (i.op = 0x4#4 ∧ s.fault = false ∧ s.wr ≠ s.rd))) ∧
    (responseWord t.resp).extractLsb' 0 8 = t.resp.data ∧
    ((responseWord t.resp).getLsbD 8 = false → t.resp.data = 0)

/-- 30_encoding.md R74: the response of each operation, on CORE's external port. -/
def Obligations.ResponsesFollowTheTable : Prop :=
  ∀ (i : Instr) (s t : State), s.port = .external → exec i s = .next t →
    (i.op = 0x4#4 → s.wr ≠ s.rd → s.fault = false →
      ∃ v : Byte, responseWord t.resp = 0b01#2 ++ v ∧ ∀ b, Memory.read? s.buf s.rd = some b → v = b) ∧
    (i.op = 0x4#4 → (s.wr = s.rd ∨ s.fault = true) → responseWord t.resp = 0x000#10) ∧
    (i.op = 0x5#4 → responseWord t.resp = if s.wr = s.rd then 0x101#10 else 0x100#10) ∧
    (i.op = 0x6#4 → responseWord t.resp = if (s.wr + 1) % s.params.slots = s.rd then 0x101#10 else 0x100#10) ∧
    (i.op ∈ [0x0#4, 0x1#4, 0x2#4, 0x3#4, 0x7#4, 0x8#4] → responseWord t.resp = 0x000#10) ∧
    (0x9#4 ≤ i.op → responseWord t.resp = 0x200#10)

/-- 10_state.md R35, ownership: which requests may change which registers, on either port; the ring operations neither
write the decoder's registers nor read them: with other values there they do and answer the same. -/
def Obligations.RegistersHaveOwners : Prop :=
  ∀ (i : Instr) (s t : State), exec i s = .next t →
    (i.op ∉ [0x1#4, 0x2#4, 0x3#4, 0x8#4] →
      t.acc = s.acc ∧ t.idx = s.idx ∧ t.elapsed = s.elapsed ∧ t.run = s.run) ∧
    (i.op ∉ [0x1#4, 0x2#4, 0x8#4, 0x9#4] → t.wr = s.wr ∧ t.buf = s.buf) ∧
    (t.rd ≠ s.rd → i.op ∈ [0x1#4, 0x4#4] ∨ (isFull s = true ∧ i.op ∈ [0x2#4, 0x8#4, 0x9#4])) ∧
    (i.op ∉ [0x1#4, 0x7#4, 0x8#4] → t.edgeEn = s.edgeEn) ∧
    (i.op ∉ [0x1#4, 0x2#4, 0x8#4] → t.edgePend = s.edgePend ∧ t.fault = s.fault ∧ t.fcode = s.fcode) ∧
    (i.op ≠ 0x1#4 → t.inited = s.inited) ∧
    (i.op ∈ [0x4#4, 0x5#4, 0x6#4, 0x9#4] → ∀ (a : Acc) (x e : Byte) (r : Bool),
      exec i { s with acc := a, idx := x, elapsed := e, run := r } =
        .next { t with acc := a, idx := x, elapsed := e, run := r })

/-- 10_state.md R36: the parameters are fixed for a run; no request touches them, the port or the trace to come. -/
def Obligations.ConfigurationIsFixed : Prop :=
  ∀ (i : Instr) (s t : State), exec i s = .next t →
    t.params = s.params ∧ t.port = s.port ∧ t.requests = s.requests

/-- 20_memory.md R63: between an EDGE_DIS and the next EDGE_ENA no edge is serviced, so no PUT happens, however long the
run and whatever else is presented. -/
def Obligations.DisableWindowHoldsOffTheProducer : Prop :=
  ∀ (k : Nat) (s t : State), s.inited = true → s.edgeEn = false → s.port = .external →
    (∀ w ∈ s.requests, opField w ≠ 0x8#4) → Host.Core.run Sys2Proof.core k s = .next t →
    t.buf = s.buf ∧ t.wr = s.wr ∧ t.edgeEn = false

/-- 60_exceptions.md R178: the arbiter's order, and the TICK it discards: one whose cycle services an edge, be it the EDGE
line's (after this cycle's INIT, if that is the first), an EDGE the Consumer presents, or a latched one that the Consumer's
EDGE_ENA releases, latched earlier or in this cycle (the model's reading of "coincides", log entry 13). Only the TICK line's
TICK is discarded, never a TICK word the Consumer presents (the model's choice, log entry 13). -/
def Obligations.ArbiterOrdersSimultaneousRequests : Prop :=
  ∀ (s : State) (l : Lines) (serviced : Bool),
    (serviced = true ↔ s.fault = false ∧
      (l.init = true ∧ s.inited = false ∧ (l.edge = true ∨ l.consumer.map opField = some 0x2#4) ∨
       l.init = false ∧ s.inited = true ∧
        (s.edgeEn = true ∧ (l.edge = true ∨ l.consumer.map opField = some 0x2#4) ∨
         l.consumer.map opField = some 0x8#4 ∧ (s.edgePend = true ∨ l.edge = true)))) →
    (arbitrate s l).map opField =
      (if l.init = true then [0x1#4] else []) ++ (if l.edge = true then [0x2#4] else []) ++
      (if l.tick = true ∧ serviced = false then [0x3#4] else []) ++ (l.consumer.map opField).toList

/-- 70_reset_and_hazards.md R198 (and R192): when INIT is presented at most once, and not at all after it has been
performed, DOUBLE_INIT is never raised, in runs of any length. -/
def Obligations.InitOnceNeverFaultsAsDouble : Prop :=
  ∀ (k : Nat) (s t : State), s.fault = false → s.fcode = 0 →
    initCount s.requests ≤ (if s.inited = true then 0 else 1) →
    Host.Core.run Sys2Proof.core k s = .next t → t.fcode ≠ 1

/-- 70_reset_and_hazards.md R193: when every disable window holds at most one edge and is closed, no EDGE is presented to a
state whose latch is already set, so none is lost by merging, except in a faulted state: a second INIT inside a window
freezes the state (60_exceptions.md R173) with its latch set. -/
def Obligations.BriefWindowsLoseNoEdge : Prop :=
  ∀ (k : Nat) (s t : State) (w : RequestWord) (ws : List RequestWord), s.edgePend = false →
    (s.inited = true → s.edgeEn = true) → windowsBrief none s.requests = true →
    Host.Core.run Sys2Proof.core k s = .next t → t.requests = w :: ws → opField w = 0x2#4 →
    t.edgePend = false ∨ t.fault = true
end

