-- ==== Sys2Proof/Laws/PerInstr.lean ====
section
/-! SUPPORT. Facts made per instruction: the family OpcodeRow, that each instruction's word is its row of the opcode
table (30_encoding.md R70, R71). -/

namespace Sys2Proof.Laws.OpcodeRow

/-- Bits 11:8 of an instruction's word are its operation code and bits 7:0 its data field. -/
def Statement (i : Instr) : Prop := opField (encode i) = i.op ∧ dataField (encode i) = i.data

/-- The two fields of a word put together from them. -/
theorem fields_of_append (o : BitVec 4) (d : Byte) :
    opField (o ++ d : RequestWord) = o ∧ dataField (o ++ d : RequestWord) = d := by
  have bits : ∀ k, BitVec.getLsbD (o ++ d : RequestWord) k = if k < 8 then d.getLsbD k else o.getLsbD (k - 8) :=
    fun k => BitVec.getLsbD_append (x := o) (y := d) (i := k)
  constructor <;> apply BitVec.eq_of_getLsbD_eq <;> intro k hk
  · simp only [opField, BitVec.getLsbD_extractLsb', bits, hk, decide_true, Bool.true_and]
    rw [if_neg (by omega), Nat.add_sub_cancel_left]
  · simp [dataField, bits, hk]

theorem nop (data : Byte) : Statement (.nop data) := fields_of_append _ _
theorem init (data : Byte) : Statement (.init data) := fields_of_append _ _
theorem edge (data : Byte) : Statement (.edge data) := fields_of_append _ _
theorem tick (data : Byte) : Statement (.tick data) := fields_of_append _ _
theorem get (data : Byte) : Statement (.get data) := fields_of_append _ _
theorem empty (data : Byte) : Statement (.empty data) := fields_of_append _ _
theorem full (data : Byte) : Statement (.full data) := fields_of_append _ _
theorem edgeDis (data : Byte) : Statement (.edgeDis data) := fields_of_append _ _
theorem edgeEna (data : Byte) : Statement (.edgeEna data) := fields_of_append _ _
theorem put (data : Byte) : Statement (.put data) := fields_of_append _ _
theorem reservedA (data : Byte) : Statement (.reservedA data) := fields_of_append _ _
theorem reservedB (data : Byte) : Statement (.reservedB data) := fields_of_append _ _
theorem reservedC (data : Byte) : Statement (.reservedC data) := fields_of_append _ _
theorem reservedD (data : Byte) : Statement (.reservedD data) := fields_of_append _ _
theorem reservedE (data : Byte) : Statement (.reservedE data) := fields_of_append _ _
theorem reservedF (data : Byte) : Statement (.reservedF data) := fields_of_append _ _

end Sys2Proof.Laws.OpcodeRow
end

