-- ==== Sys2Proof/Laws/Decode.lean ====
section
/-! SUPPORT. The decoder and the encoder through an instruction's two fields, `op` and `data`. -/

namespace Sys2Proof

/-- The fields of a decoded word are the fields of the word. -/
theorem decode_fields (w : RequestWord) : (decode w).op = opField w ∧ (decode w).data = dataField w := by
  unfold decode
  generalize opField w = o
  generalize dataField w = d
  obtain ⟨⟨n, hn⟩⟩ := o
  interval_cases n <;> exact ⟨rfl, rfl⟩

/-- An instruction's word is its two fields put together. -/
theorem encode_eq (i : Instr) : encode i = i.op ++ i.data := by cases i <;> rfl

/-- A word is its two fields put together. -/
theorem word_eq_append (w : RequestWord) : w = opField w ++ dataField w := by
  apply BitVec.eq_of_getLsbD_eq
  intro k hk
  rw [BitVec.getLsbD_append]
  simp only [opField, dataField, BitVec.getLsbD_extractLsb']
  by_cases h8 : k < 8
  · simp [h8]
  · simp [h8, show k - 8 < 4 by omega, show 8 + (k - 8) = k by omega]

/-- An instruction is determined by its two fields. -/
theorem Instr.ext_fields {i j : Instr} (h : i.op = j.op) (h' : i.data = j.data) : i = j := by
  cases i <;> cases j <;> simp_all [Instr.op, Instr.data]

end Sys2Proof
end

