-- ==== Sys2Proof/Laws/Memory.lean ====
section
/-! SUPPORT. The laws of ring storage: read after write, canonical form, and that reads determine it. -/

namespace Sys2Proof.Machine

/-- Reading a slot after a write: the new byte there, every other slot as before. -/
theorem Memory.read?_write (m : List Host.Cell) (a : Nat) (b : Byte) (x : Nat) :
    Memory.read? (Memory.write m a b) x = if a = x then some b else Memory.read? m x := by
  induction m with
  | nil => simp [Memory.write, Memory.read?]
  | cons c m ih =>
    obtain ⟨k, v⟩ := c
    unfold Memory.write
    split
    · by_cases hx : a = x <;> simp [Memory.read?, hx]
    · split
      · next hk =>
        subst hk
        by_cases hx : a = x <;> simp [Memory.read?, hx]
      · by_cases hx : k = x
        · have : a ≠ x := by omega
          simp [Memory.read?, hx, this]
        · simp [Memory.read?, hx, ih]

/-- The slots listed after a write. -/
theorem Memory.mem_keys_write (m : List Host.Cell) (a : Nat) (b : Byte) (x : Nat) :
    x ∈ (Memory.write m a b).map Prod.fst → x = a ∨ x ∈ m.map Prod.fst := by
  induction m with
  | nil => simp [Memory.write]
  | cons c m ih =>
    obtain ⟨k, v⟩ := c
    unfold Memory.write
    split
    · simp
    · split
      · next hk => subst hk; simp
      · simp only [List.map_cons, List.mem_cons]
        rintro (h | h)
        · exact .inr (.inl h)
        · exact (ih h).imp_right .inr

/-- A write keeps the canonical form. -/
theorem Memory.wf_write (m : List Host.Cell) (a : Nat) (b : Byte) (h : Memory.wf m) :
    Memory.wf (Memory.write m a b) := by
  induction m with
  | nil => simp [Memory.write, Memory.wf]
  | cons c m ih =>
    obtain ⟨k, v⟩ := c
    have h' := List.pairwise_cons.1 h
    unfold Memory.write
    split
    · next hk =>
      refine List.pairwise_cons.2 ⟨fun x hx => ?_, h⟩
      rcases List.mem_cons.1 hx with rfl | hx
      · exact hk
      · exact lt_trans hk (h'.1 x hx)
    · split
      · next hk => subst hk; exact h
      · refine List.pairwise_cons.2 ⟨fun x hx => ?_, ih h'.2⟩
        rcases Memory.mem_keys_write m a b x hx with rfl | hx
        · show k < x; omega
        · exact h'.1 x hx

/-- A write inside `n` slots lists no slot outside them. -/
theorem Memory.write_in_range (m : List Host.Cell) (a : Nat) (b : Byte) (n : Nat) (ha : a < n)
    (h : ∀ c ∈ m, c.1 < n) : ∀ c ∈ Memory.write m a b, c.1 < n := by
  intro c hc
  rcases Memory.mem_keys_write m a b c.1 (List.mem_map_of_mem hc) with h' | h'
  · omega
  · obtain ⟨d, hd, he⟩ := List.mem_map.1 h'
    exact he ▸ h d hd

/-- A slot below every listed one has no value. -/
theorem Memory.read?_below (m : List Host.Cell) (a : Nat) (h : ∀ x ∈ m.map Prod.fst, a < x) :
    Memory.read? m a = none := by
  induction m with
  | nil => rfl
  | cons c m ih =>
    obtain ⟨k, v⟩ := c
    have hk : a < k := h k (by simp)
    have : k ≠ a := by omega
    simp only [Memory.read?, this, if_false]
    exact ih fun x hx => h x (by simp only [List.map_cons, List.mem_cons]; exact .inr hx)

/-- Equal memories are equal data: canonical storage is determined by its reads. -/
theorem Memory.ext (m m' : List Host.Cell) (h : Memory.wf m) (h' : Memory.wf m')
    (hr : ∀ a, Memory.read? m a = Memory.read? m' a) : m = m' := by
  induction m generalizing m' with
  | nil =>
    cases m' with
    | nil => rfl
    | cons c m' => have := hr c.1; simp [Memory.read?] at this
  | cons c m ih =>
    obtain ⟨k, v⟩ := c
    have hc := List.pairwise_cons.1 h
    cases m' with
    | nil => have := hr k; simp [Memory.read?] at this
    | cons c' m' =>
      obtain ⟨k', v'⟩ := c'
      have hc' := List.pairwise_cons.1 h'
      have hkk : k = k' := by
        rcases lt_trichotomy k k' with hlt | he | hgt
        · have := hr k
          have hn : Memory.read? m' k = none :=
            Memory.read?_below m' k fun x hx => lt_trans hlt (hc'.1 x hx)
          have hne : k' ≠ k := by omega
          simp [Memory.read?, hn, hne] at this
        · exact he
        · have := hr k'
          have hn : Memory.read? m k' = none :=
            Memory.read?_below m k' fun x hx => lt_trans hgt (hc.1 x hx)
          have hne : k ≠ k' := by omega
          simp [Memory.read?, hn, hne] at this
      subst hkk
      have hv : v = v' := by have := hr k; simpa [Memory.read?] using this
      subst hv
      congr 1
      refine ih m' hc.2 hc'.2 fun a => ?_
      by_cases ha : k = a
      · subst ha
        rw [Memory.read?_below m k hc.1, Memory.read?_below m' k hc'.1]
      · have := hr a; simpa [Memory.read?, ha] using this

end Sys2Proof.Machine
end

