-- ==== Sys2Proof/Laws/State.lean ====
section
/-! SUPPORT. One lemma per field per register update, true by rfl: no later proof unfolds a record update. -/

namespace Sys2Proof.Machine

variable (s : State)

@[simp] theorem State.respond_params (r : Response) : (s.respond r).params = s.params := rfl
@[simp] theorem State.respond_port (r : Response) : (s.respond r).port = s.port := rfl
@[simp] theorem State.respond_requests (r : Response) : (s.respond r).requests = s.requests := rfl
@[simp] theorem State.respond_acc (r : Response) : (s.respond r).acc = s.acc := rfl
@[simp] theorem State.respond_idx (r : Response) : (s.respond r).idx = s.idx := rfl
@[simp] theorem State.respond_elapsed (r : Response) : (s.respond r).elapsed = s.elapsed := rfl
@[simp] theorem State.respond_run (r : Response) : (s.respond r).run = s.run := rfl
@[simp] theorem State.respond_edgeEn (r : Response) : (s.respond r).edgeEn = s.edgeEn := rfl
@[simp] theorem State.respond_edgePend (r : Response) : (s.respond r).edgePend = s.edgePend := rfl
@[simp] theorem State.respond_inited (r : Response) : (s.respond r).inited = s.inited := rfl
@[simp] theorem State.respond_fault (r : Response) : (s.respond r).fault = s.fault := rfl
@[simp] theorem State.respond_fcode (r : Response) : (s.respond r).fcode = s.fcode := rfl
@[simp] theorem State.respond_buf (r : Response) : (s.respond r).buf = s.buf := rfl
@[simp] theorem State.respond_wr (r : Response) : (s.respond r).wr = s.wr := rfl
@[simp] theorem State.respond_rd (r : Response) : (s.respond r).rd = s.rd := rfl
@[simp] theorem State.respond_resp (r : Response) : (s.respond r).resp = r := rfl

@[simp] theorem State.raiseFault_params (c : BitVec 2) : (s.raiseFault c).params = s.params := rfl
@[simp] theorem State.raiseFault_port (c : BitVec 2) : (s.raiseFault c).port = s.port := rfl
@[simp] theorem State.raiseFault_requests (c : BitVec 2) : (s.raiseFault c).requests = s.requests := rfl
@[simp] theorem State.raiseFault_acc (c : BitVec 2) : (s.raiseFault c).acc = s.acc := rfl
@[simp] theorem State.raiseFault_idx (c : BitVec 2) : (s.raiseFault c).idx = s.idx := rfl
@[simp] theorem State.raiseFault_elapsed (c : BitVec 2) : (s.raiseFault c).elapsed = s.elapsed := rfl
@[simp] theorem State.raiseFault_run (c : BitVec 2) : (s.raiseFault c).run = s.run := rfl
@[simp] theorem State.raiseFault_edgeEn (c : BitVec 2) : (s.raiseFault c).edgeEn = s.edgeEn := rfl
@[simp] theorem State.raiseFault_edgePend (c : BitVec 2) : (s.raiseFault c).edgePend = s.edgePend := rfl
@[simp] theorem State.raiseFault_inited (c : BitVec 2) : (s.raiseFault c).inited = s.inited := rfl
@[simp] theorem State.raiseFault_fault (c : BitVec 2) : (s.raiseFault c).fault = true := rfl
@[simp] theorem State.raiseFault_fcode (c : BitVec 2) : (s.raiseFault c).fcode = c := rfl
@[simp] theorem State.raiseFault_buf (c : BitVec 2) : (s.raiseFault c).buf = s.buf := rfl
@[simp] theorem State.raiseFault_wr (c : BitVec 2) : (s.raiseFault c).wr = s.wr := rfl
@[simp] theorem State.raiseFault_rd (c : BitVec 2) : (s.raiseFault c).rd = s.rd := rfl
@[simp] theorem State.raiseFault_resp (c : BitVec 2) : (s.raiseFault c).resp = s.resp := rfl

@[simp] theorem State.arm_params : (s.arm).params = s.params := rfl
@[simp] theorem State.arm_port : (s.arm).port = s.port := rfl
@[simp] theorem State.arm_requests : (s.arm).requests = s.requests := rfl
@[simp] theorem State.arm_acc : (s.arm).acc = 0 := rfl
@[simp] theorem State.arm_idx : (s.arm).idx = 0 := rfl
@[simp] theorem State.arm_elapsed : (s.arm).elapsed = 0 := rfl
@[simp] theorem State.arm_run : (s.arm).run = true := rfl
@[simp] theorem State.arm_edgeEn : (s.arm).edgeEn = true := rfl
@[simp] theorem State.arm_edgePend : (s.arm).edgePend = false := rfl
@[simp] theorem State.arm_inited : (s.arm).inited = true := rfl
@[simp] theorem State.arm_fault : (s.arm).fault = s.fault := rfl
@[simp] theorem State.arm_fcode : (s.arm).fcode = s.fcode := rfl
@[simp] theorem State.arm_buf : (s.arm).buf = s.buf := rfl
@[simp] theorem State.arm_wr : (s.arm).wr = 0 := rfl
@[simp] theorem State.arm_rd : (s.arm).rd = 0 := rfl
@[simp] theorem State.arm_resp : (s.arm).resp = s.resp := rfl

@[simp] theorem State.resync_params : (s.resync).params = s.params := rfl
@[simp] theorem State.resync_port : (s.resync).port = s.port := rfl
@[simp] theorem State.resync_requests : (s.resync).requests = s.requests := rfl
@[simp] theorem State.resync_acc : (s.resync).acc = 0 := rfl
@[simp] theorem State.resync_idx : (s.resync).idx = 1 := rfl
@[simp] theorem State.resync_elapsed : (s.resync).elapsed = s.elapsed := rfl
@[simp] theorem State.resync_run : (s.resync).run = s.run := rfl
@[simp] theorem State.resync_edgeEn : (s.resync).edgeEn = s.edgeEn := rfl
@[simp] theorem State.resync_edgePend : (s.resync).edgePend = s.edgePend := rfl
@[simp] theorem State.resync_inited : (s.resync).inited = s.inited := rfl
@[simp] theorem State.resync_fault : (s.resync).fault = s.fault := rfl
@[simp] theorem State.resync_fcode : (s.resync).fcode = s.fcode := rfl
@[simp] theorem State.resync_buf : (s.resync).buf = s.buf := rfl
@[simp] theorem State.resync_wr : (s.resync).wr = s.wr := rfl
@[simp] theorem State.resync_rd : (s.resync).rd = s.rd := rfl
@[simp] theorem State.resync_resp : (s.resync).resp = s.resp := rfl

@[simp] theorem State.advance_params (i : Byte) (a : Acc) : (s.advance i a).params = s.params := rfl
@[simp] theorem State.advance_port (i : Byte) (a : Acc) : (s.advance i a).port = s.port := rfl
@[simp] theorem State.advance_requests (i : Byte) (a : Acc) : (s.advance i a).requests = s.requests := rfl
@[simp] theorem State.advance_acc (i : Byte) (a : Acc) : (s.advance i a).acc = a := rfl
@[simp] theorem State.advance_idx (i : Byte) (a : Acc) : (s.advance i a).idx = i := rfl
@[simp] theorem State.advance_elapsed (i : Byte) (a : Acc) : (s.advance i a).elapsed = s.elapsed := rfl
@[simp] theorem State.advance_run (i : Byte) (a : Acc) : (s.advance i a).run = s.run := rfl
@[simp] theorem State.advance_edgeEn (i : Byte) (a : Acc) : (s.advance i a).edgeEn = s.edgeEn := rfl
@[simp] theorem State.advance_edgePend (i : Byte) (a : Acc) : (s.advance i a).edgePend = s.edgePend := rfl
@[simp] theorem State.advance_inited (i : Byte) (a : Acc) : (s.advance i a).inited = s.inited := rfl
@[simp] theorem State.advance_fault (i : Byte) (a : Acc) : (s.advance i a).fault = s.fault := rfl
@[simp] theorem State.advance_fcode (i : Byte) (a : Acc) : (s.advance i a).fcode = s.fcode := rfl
@[simp] theorem State.advance_buf (i : Byte) (a : Acc) : (s.advance i a).buf = s.buf := rfl
@[simp] theorem State.advance_wr (i : Byte) (a : Acc) : (s.advance i a).wr = s.wr := rfl
@[simp] theorem State.advance_rd (i : Byte) (a : Acc) : (s.advance i a).rd = s.rd := rfl
@[simp] theorem State.advance_resp (i : Byte) (a : Acc) : (s.advance i a).resp = s.resp := rfl

@[simp] theorem State.restart_params : (s.restart).params = s.params := rfl
@[simp] theorem State.restart_port : (s.restart).port = s.port := rfl
@[simp] theorem State.restart_requests : (s.restart).requests = s.requests := rfl
@[simp] theorem State.restart_acc : (s.restart).acc = s.acc := rfl
@[simp] theorem State.restart_idx : (s.restart).idx = s.idx := rfl
@[simp] theorem State.restart_elapsed : (s.restart).elapsed = 0 := rfl
@[simp] theorem State.restart_run : (s.restart).run = true := rfl
@[simp] theorem State.restart_edgeEn : (s.restart).edgeEn = s.edgeEn := rfl
@[simp] theorem State.restart_edgePend : (s.restart).edgePend = s.edgePend := rfl
@[simp] theorem State.restart_inited : (s.restart).inited = s.inited := rfl
@[simp] theorem State.restart_fault : (s.restart).fault = s.fault := rfl
@[simp] theorem State.restart_fcode : (s.restart).fcode = s.fcode := rfl
@[simp] theorem State.restart_buf : (s.restart).buf = s.buf := rfl
@[simp] theorem State.restart_wr : (s.restart).wr = s.wr := rfl
@[simp] theorem State.restart_rd : (s.restart).rd = s.rd := rfl
@[simp] theorem State.restart_resp : (s.restart).resp = s.resp := rfl

@[simp] theorem State.countTick_params : (s.countTick).params = s.params := rfl
@[simp] theorem State.countTick_port : (s.countTick).port = s.port := rfl
@[simp] theorem State.countTick_requests : (s.countTick).requests = s.requests := rfl
@[simp] theorem State.countTick_acc : (s.countTick).acc = s.acc := rfl
@[simp] theorem State.countTick_idx : (s.countTick).idx = s.idx := rfl
@[simp] theorem State.countTick_elapsed : (s.countTick).elapsed = s.elapsed + 1#8 := rfl
@[simp] theorem State.countTick_run : (s.countTick).run = s.run := rfl
@[simp] theorem State.countTick_edgeEn : (s.countTick).edgeEn = s.edgeEn := rfl
@[simp] theorem State.countTick_edgePend : (s.countTick).edgePend = s.edgePend := rfl
@[simp] theorem State.countTick_inited : (s.countTick).inited = s.inited := rfl
@[simp] theorem State.countTick_fault : (s.countTick).fault = s.fault := rfl
@[simp] theorem State.countTick_fcode : (s.countTick).fcode = s.fcode := rfl
@[simp] theorem State.countTick_buf : (s.countTick).buf = s.buf := rfl
@[simp] theorem State.countTick_wr : (s.countTick).wr = s.wr := rfl
@[simp] theorem State.countTick_rd : (s.countTick).rd = s.rd := rfl
@[simp] theorem State.countTick_resp : (s.countTick).resp = s.resp := rfl

@[simp] theorem State.timeout_params : (s.timeout).params = s.params := rfl
@[simp] theorem State.timeout_port : (s.timeout).port = s.port := rfl
@[simp] theorem State.timeout_requests : (s.timeout).requests = s.requests := rfl
@[simp] theorem State.timeout_acc : (s.timeout).acc = 0 := rfl
@[simp] theorem State.timeout_idx : (s.timeout).idx = 0 := rfl
@[simp] theorem State.timeout_elapsed : (s.timeout).elapsed = 0 := rfl
@[simp] theorem State.timeout_run : (s.timeout).run = false := rfl
@[simp] theorem State.timeout_edgeEn : (s.timeout).edgeEn = s.edgeEn := rfl
@[simp] theorem State.timeout_edgePend : (s.timeout).edgePend = s.edgePend := rfl
@[simp] theorem State.timeout_inited : (s.timeout).inited = s.inited := rfl
@[simp] theorem State.timeout_fault : (s.timeout).fault = s.fault := rfl
@[simp] theorem State.timeout_fcode : (s.timeout).fcode = s.fcode := rfl
@[simp] theorem State.timeout_buf : (s.timeout).buf = s.buf := rfl
@[simp] theorem State.timeout_wr : (s.timeout).wr = s.wr := rfl
@[simp] theorem State.timeout_rd : (s.timeout).rd = s.rd := rfl
@[simp] theorem State.timeout_resp : (s.timeout).resp = s.resp := rfl

@[simp] theorem State.latchEdge_params : (s.latchEdge).params = s.params := rfl
@[simp] theorem State.latchEdge_port : (s.latchEdge).port = s.port := rfl
@[simp] theorem State.latchEdge_requests : (s.latchEdge).requests = s.requests := rfl
@[simp] theorem State.latchEdge_acc : (s.latchEdge).acc = s.acc := rfl
@[simp] theorem State.latchEdge_idx : (s.latchEdge).idx = s.idx := rfl
@[simp] theorem State.latchEdge_elapsed : (s.latchEdge).elapsed = s.elapsed := rfl
@[simp] theorem State.latchEdge_run : (s.latchEdge).run = s.run := rfl
@[simp] theorem State.latchEdge_edgeEn : (s.latchEdge).edgeEn = s.edgeEn := rfl
@[simp] theorem State.latchEdge_edgePend : (s.latchEdge).edgePend = true := rfl
@[simp] theorem State.latchEdge_inited : (s.latchEdge).inited = s.inited := rfl
@[simp] theorem State.latchEdge_fault : (s.latchEdge).fault = s.fault := rfl
@[simp] theorem State.latchEdge_fcode : (s.latchEdge).fcode = s.fcode := rfl
@[simp] theorem State.latchEdge_buf : (s.latchEdge).buf = s.buf := rfl
@[simp] theorem State.latchEdge_wr : (s.latchEdge).wr = s.wr := rfl
@[simp] theorem State.latchEdge_rd : (s.latchEdge).rd = s.rd := rfl
@[simp] theorem State.latchEdge_resp : (s.latchEdge).resp = s.resp := rfl

@[simp] theorem State.clearPend_params : (s.clearPend).params = s.params := rfl
@[simp] theorem State.clearPend_port : (s.clearPend).port = s.port := rfl
@[simp] theorem State.clearPend_requests : (s.clearPend).requests = s.requests := rfl
@[simp] theorem State.clearPend_acc : (s.clearPend).acc = s.acc := rfl
@[simp] theorem State.clearPend_idx : (s.clearPend).idx = s.idx := rfl
@[simp] theorem State.clearPend_elapsed : (s.clearPend).elapsed = s.elapsed := rfl
@[simp] theorem State.clearPend_run : (s.clearPend).run = s.run := rfl
@[simp] theorem State.clearPend_edgeEn : (s.clearPend).edgeEn = s.edgeEn := rfl
@[simp] theorem State.clearPend_edgePend : (s.clearPend).edgePend = false := rfl
@[simp] theorem State.clearPend_inited : (s.clearPend).inited = s.inited := rfl
@[simp] theorem State.clearPend_fault : (s.clearPend).fault = s.fault := rfl
@[simp] theorem State.clearPend_fcode : (s.clearPend).fcode = s.fcode := rfl
@[simp] theorem State.clearPend_buf : (s.clearPend).buf = s.buf := rfl
@[simp] theorem State.clearPend_wr : (s.clearPend).wr = s.wr := rfl
@[simp] theorem State.clearPend_rd : (s.clearPend).rd = s.rd := rfl
@[simp] theorem State.clearPend_resp : (s.clearPend).resp = s.resp := rfl

@[simp] theorem State.setEdgeEn_params (b : Bool) : (s.setEdgeEn b).params = s.params := rfl
@[simp] theorem State.setEdgeEn_port (b : Bool) : (s.setEdgeEn b).port = s.port := rfl
@[simp] theorem State.setEdgeEn_requests (b : Bool) : (s.setEdgeEn b).requests = s.requests := rfl
@[simp] theorem State.setEdgeEn_acc (b : Bool) : (s.setEdgeEn b).acc = s.acc := rfl
@[simp] theorem State.setEdgeEn_idx (b : Bool) : (s.setEdgeEn b).idx = s.idx := rfl
@[simp] theorem State.setEdgeEn_elapsed (b : Bool) : (s.setEdgeEn b).elapsed = s.elapsed := rfl
@[simp] theorem State.setEdgeEn_run (b : Bool) : (s.setEdgeEn b).run = s.run := rfl
@[simp] theorem State.setEdgeEn_edgeEn (b : Bool) : (s.setEdgeEn b).edgeEn = b := rfl
@[simp] theorem State.setEdgeEn_edgePend (b : Bool) : (s.setEdgeEn b).edgePend = s.edgePend := rfl
@[simp] theorem State.setEdgeEn_inited (b : Bool) : (s.setEdgeEn b).inited = s.inited := rfl
@[simp] theorem State.setEdgeEn_fault (b : Bool) : (s.setEdgeEn b).fault = s.fault := rfl
@[simp] theorem State.setEdgeEn_fcode (b : Bool) : (s.setEdgeEn b).fcode = s.fcode := rfl
@[simp] theorem State.setEdgeEn_buf (b : Bool) : (s.setEdgeEn b).buf = s.buf := rfl
@[simp] theorem State.setEdgeEn_wr (b : Bool) : (s.setEdgeEn b).wr = s.wr := rfl
@[simp] theorem State.setEdgeEn_rd (b : Bool) : (s.setEdgeEn b).rd = s.rd := rfl
@[simp] theorem State.setEdgeEn_resp (b : Bool) : (s.setEdgeEn b).resp = s.resp := rfl

@[simp] theorem State.advanceWr_params : (s.advanceWr).params = s.params := rfl
@[simp] theorem State.advanceWr_port : (s.advanceWr).port = s.port := rfl
@[simp] theorem State.advanceWr_requests : (s.advanceWr).requests = s.requests := rfl
@[simp] theorem State.advanceWr_acc : (s.advanceWr).acc = s.acc := rfl
@[simp] theorem State.advanceWr_idx : (s.advanceWr).idx = s.idx := rfl
@[simp] theorem State.advanceWr_elapsed : (s.advanceWr).elapsed = s.elapsed := rfl
@[simp] theorem State.advanceWr_run : (s.advanceWr).run = s.run := rfl
@[simp] theorem State.advanceWr_edgeEn : (s.advanceWr).edgeEn = s.edgeEn := rfl
@[simp] theorem State.advanceWr_edgePend : (s.advanceWr).edgePend = s.edgePend := rfl
@[simp] theorem State.advanceWr_inited : (s.advanceWr).inited = s.inited := rfl
@[simp] theorem State.advanceWr_fault : (s.advanceWr).fault = s.fault := rfl
@[simp] theorem State.advanceWr_fcode : (s.advanceWr).fcode = s.fcode := rfl
@[simp] theorem State.advanceWr_buf : (s.advanceWr).buf = s.buf := rfl
@[simp] theorem State.advanceWr_wr : (s.advanceWr).wr = nextSlot s.params.slots s.wr := rfl
@[simp] theorem State.advanceWr_rd : (s.advanceWr).rd = s.rd := rfl
@[simp] theorem State.advanceWr_resp : (s.advanceWr).resp = s.resp := rfl

@[simp] theorem State.advanceRd_params : (s.advanceRd).params = s.params := rfl
@[simp] theorem State.advanceRd_port : (s.advanceRd).port = s.port := rfl
@[simp] theorem State.advanceRd_requests : (s.advanceRd).requests = s.requests := rfl
@[simp] theorem State.advanceRd_acc : (s.advanceRd).acc = s.acc := rfl
@[simp] theorem State.advanceRd_idx : (s.advanceRd).idx = s.idx := rfl
@[simp] theorem State.advanceRd_elapsed : (s.advanceRd).elapsed = s.elapsed := rfl
@[simp] theorem State.advanceRd_run : (s.advanceRd).run = s.run := rfl
@[simp] theorem State.advanceRd_edgeEn : (s.advanceRd).edgeEn = s.edgeEn := rfl
@[simp] theorem State.advanceRd_edgePend : (s.advanceRd).edgePend = s.edgePend := rfl
@[simp] theorem State.advanceRd_inited : (s.advanceRd).inited = s.inited := rfl
@[simp] theorem State.advanceRd_fault : (s.advanceRd).fault = s.fault := rfl
@[simp] theorem State.advanceRd_fcode : (s.advanceRd).fcode = s.fcode := rfl
@[simp] theorem State.advanceRd_buf : (s.advanceRd).buf = s.buf := rfl
@[simp] theorem State.advanceRd_wr : (s.advanceRd).wr = s.wr := rfl
@[simp] theorem State.advanceRd_rd : (s.advanceRd).rd = nextSlot s.params.slots s.rd := rfl
@[simp] theorem State.advanceRd_resp : (s.advanceRd).resp = s.resp := rfl

@[simp] theorem State.setBuf_params (m : List Host.Cell) : (s.setBuf m).params = s.params := rfl
@[simp] theorem State.setBuf_port (m : List Host.Cell) : (s.setBuf m).port = s.port := rfl
@[simp] theorem State.setBuf_requests (m : List Host.Cell) : (s.setBuf m).requests = s.requests := rfl
@[simp] theorem State.setBuf_acc (m : List Host.Cell) : (s.setBuf m).acc = s.acc := rfl
@[simp] theorem State.setBuf_idx (m : List Host.Cell) : (s.setBuf m).idx = s.idx := rfl
@[simp] theorem State.setBuf_elapsed (m : List Host.Cell) : (s.setBuf m).elapsed = s.elapsed := rfl
@[simp] theorem State.setBuf_run (m : List Host.Cell) : (s.setBuf m).run = s.run := rfl
@[simp] theorem State.setBuf_edgeEn (m : List Host.Cell) : (s.setBuf m).edgeEn = s.edgeEn := rfl
@[simp] theorem State.setBuf_edgePend (m : List Host.Cell) : (s.setBuf m).edgePend = s.edgePend := rfl
@[simp] theorem State.setBuf_inited (m : List Host.Cell) : (s.setBuf m).inited = s.inited := rfl
@[simp] theorem State.setBuf_fault (m : List Host.Cell) : (s.setBuf m).fault = s.fault := rfl
@[simp] theorem State.setBuf_fcode (m : List Host.Cell) : (s.setBuf m).fcode = s.fcode := rfl
@[simp] theorem State.setBuf_buf (m : List Host.Cell) : (s.setBuf m).buf = m := rfl
@[simp] theorem State.setBuf_wr (m : List Host.Cell) : (s.setBuf m).wr = s.wr := rfl
@[simp] theorem State.setBuf_rd (m : List Host.Cell) : (s.setBuf m).rd = s.rd := rfl
@[simp] theorem State.setBuf_resp (m : List Host.Cell) : (s.setBuf m).resp = s.resp := rfl

@[simp] theorem State.setRequests_params (ws : List RequestWord) : (s.setRequests ws).params = s.params := rfl
@[simp] theorem State.setRequests_port (ws : List RequestWord) : (s.setRequests ws).port = s.port := rfl
@[simp] theorem State.setRequests_requests (ws : List RequestWord) : (s.setRequests ws).requests = ws := rfl
@[simp] theorem State.setRequests_acc (ws : List RequestWord) : (s.setRequests ws).acc = s.acc := rfl
@[simp] theorem State.setRequests_idx (ws : List RequestWord) : (s.setRequests ws).idx = s.idx := rfl
@[simp] theorem State.setRequests_elapsed (ws : List RequestWord) : (s.setRequests ws).elapsed = s.elapsed := rfl
@[simp] theorem State.setRequests_run (ws : List RequestWord) : (s.setRequests ws).run = s.run := rfl
@[simp] theorem State.setRequests_edgeEn (ws : List RequestWord) : (s.setRequests ws).edgeEn = s.edgeEn := rfl
@[simp] theorem State.setRequests_edgePend (ws : List RequestWord) : (s.setRequests ws).edgePend = s.edgePend := rfl
@[simp] theorem State.setRequests_inited (ws : List RequestWord) : (s.setRequests ws).inited = s.inited := rfl
@[simp] theorem State.setRequests_fault (ws : List RequestWord) : (s.setRequests ws).fault = s.fault := rfl
@[simp] theorem State.setRequests_fcode (ws : List RequestWord) : (s.setRequests ws).fcode = s.fcode := rfl
@[simp] theorem State.setRequests_buf (ws : List RequestWord) : (s.setRequests ws).buf = s.buf := rfl
@[simp] theorem State.setRequests_wr (ws : List RequestWord) : (s.setRequests ws).wr = s.wr := rfl
@[simp] theorem State.setRequests_rd (ws : List RequestWord) : (s.setRequests ws).rd = s.rd := rfl
@[simp] theorem State.setRequests_resp (ws : List RequestWord) : (s.setRequests ws).resp = s.resp := rfl

@[simp] theorem evictIfFull_params : (evictIfFull s).params = s.params := by unfold evictIfFull; split <;> rfl
@[simp] theorem evictIfFull_buf : (evictIfFull s).buf = s.buf := by unfold evictIfFull; split <;> rfl
@[simp] theorem evictIfFull_wr : (evictIfFull s).wr = s.wr := by unfold evictIfFull; split <;> rfl

end Sys2Proof.Machine
end

