-- ==== Sys2Proof/Laws/Ops.lean ====
section
/-! SUPPORT. One lemma per shared operation that says once everything it can do. -/

namespace Sys2Proof.Machine

/-! ### Sequencing and guards -/

@[simp] theorem andThen_next (s : State) (f : State → Result) : andThen (.next s) f = f s := rfl
@[simp] theorem andThen_fault (e : Fault) (f : State → Result) : andThen (.fault e) f = .fault e := rfl
@[simp] theorem andThen_refused (e : Refusal) (f : State → Result) : andThen (.refused e) f = .refused e := rfl

/-- A sequence reaches a next state exactly when both its parts do. -/
theorem andThen_eq_next {r : Result} {f : State → Result} {t : State} :
    andThen r f = .next t ↔ ∃ u, r = .next u ∧ f u = .next t := by
  cases r <;> simp

@[simp] theorem done_eq_next {s t : State} : done s = .next t ↔ t = s.respond nullResponse := by
  simp [done, eq_comm]

/-- A guarded operation either leaves everything but the response (faulted, or not initialised), or runs. -/
theorem whenArmed_cases (s : State) (body : Result) :
    ((s.fault = true ∨ s.inited = false) ∧ whenArmed s body = done s) ∨
    (s.fault = false ∧ s.inited = true ∧ whenArmed s body = body) := by
  unfold whenArmed; cases s.fault <;> cases s.inited <;> simp

theorem whenArmed_inert {s : State} (body : Result) (h : s.fault = true ∨ s.inited = false) :
    whenArmed s body = done s := by
  unfold whenArmed; rcases h with h | h <;> simp [h]

theorem whenArmed_runs {s : State} (body : Result) (hf : s.fault = false) (hi : s.inited = true) :
    whenArmed s body = body := by simp [whenArmed, hf, hi]

/-! ### Cursors -/

/-- The two predicates as equations on the cursors. -/
@[simp] theorem isEmpty_iff (s : State) : isEmpty s = true ↔ s.wr = s.rd := decide_eq_true_iff

@[simp] theorem isFull_iff (s : State) : isFull s = true ↔ (s.wr + 1) % s.params.slots = s.rd := decide_eq_true_iff

theorem nextSlot_lt {n : Nat} (a : Nat) (h : 0 < n) : nextSlot n a < n := Nat.mod_lt _ h

/-- In range, the successor is the next number, or 0 at the top. -/
theorem nextSlot_eq {n a : Nat} (h : a < n) : nextSlot n a = if a + 1 = n then 0 else a + 1 := by
  unfold nextSlot
  split
  · next he => rw [he, Nat.mod_self]
  · exact Nat.mod_eq_of_lt (by omega)

/-- In range, the count is the distance from the read to the write cursor. -/
theorem unreadCount_eq {s : State} (hw : s.wr < s.params.slots) (hr : s.rd < s.params.slots) :
    unreadCount s = if s.rd ≤ s.wr then s.wr - s.rd else s.wr + s.params.slots - s.rd := by
  unfold unreadCount
  split
  · rw [show s.wr + (s.params.slots - s.rd) = (s.wr - s.rd) + s.params.slots by omega,
      Nat.add_mod_right, Nat.mod_eq_of_lt (by omega)]
  · rw [Nat.mod_eq_of_lt (by omega)]; omega

/-- A number below twice the modulus, reduced. -/
theorem mod_eq_sub_or {n x : Nat} (h : x < 2 * n) : x % n = if x < n then x else x - n := by
  split
  · next hx => exact Nat.mod_eq_of_lt hx
  · rw [Nat.mod_eq_sub_mod (by omega), Nat.mod_eq_of_lt (by omega)]

/-! ### Ring accesses -/

/-- What PUT gives: evict when full, the byte in the slot of the write cursor, the cursor advanced; a write cursor
outside the slots is the one stop. -/
theorem ringPut_eq (s : State) (b : Byte) :
    ringPut s b =
      if s.wr < s.params.slots then
        .next { s with
          rd := if isFull s then nextSlot s.params.slots s.rd else s.rd
          buf := Memory.write s.buf s.wr b
          wr := nextSlot s.params.slots s.wr }
      else .fault .noSuchSlot := by
  unfold ringPut memWrite
  simp only [evictIfFull_params, evictIfFull_buf]
  split
  · simp only [andThen_next, Host.Outcome.next.injEq]
    unfold evictIfFull
    cases isFull s <;> rfl
  · rfl

/-! ### The service sequence -/

/-- What a serviced edge can do, said once: the overflow fault; a resync; an advance that pushes nothing; an advance that
pushes the command byte (40_decoder.md R101). -/
theorem serviceEdge_next {s t : State} (h : serviceEdge s = .next t) :
    (s.idx = s.params.idxMax ∧ t = s.raiseFault fcodeIdxOverflow) ∨
    (s.idx ≠ s.params.idxMax ∧ window (s.idx + 1#8) s.elapsed = false ∧ t = s.resync.restart) ∨
    (s.idx ≠ s.params.idxMax ∧ window (s.idx + 1#8) s.elapsed = true ∧ isCompletion (s.idx + 1#8) = false ∧
      t = (s.advance (s.idx + 1#8) (accAfter (s.idx + 1#8) s.elapsed s.acc)).restart) ∨
    (s.idx ≠ s.params.idxMax ∧ window (s.idx + 1#8) s.elapsed = true ∧ isCompletion (s.idx + 1#8) = true ∧
      s.wr < s.params.slots ∧
      t = { s with
        idx := s.idx + 1
        acc := accAfter (s.idx + 1#8) s.elapsed s.acc
        rd := if isFull s then nextSlot s.params.slots s.rd else s.rd
        buf := Memory.write s.buf s.wr (commandByte (accAfter (s.idx + 1#8) s.elapsed s.acc))
        wr := nextSlot s.params.slots s.wr
        elapsed := 0
        run := true }) := by
  unfold serviceEdge at h
  split at h
  · next hi => exact .inl ⟨hi, by simpa using h.symm⟩
  · next hi =>
    unfold judgePulse at h
    split at h
    · next hw =>
      unfold acceptPulse at h
      split at h
      · next hc =>
        rw [ringPut_eq] at h
        by_cases hwr : s.wr < s.params.slots
        · simp only [State.advance_params, State.advance_wr, hwr, if_true, andThen_next,
            Host.Outcome.next.injEq] at h
          exact .inr (.inr (.inr ⟨hi, hw, hc, hwr, h.symm⟩))
        · simp [hwr] at h
      · next hc =>
        refine .inr (.inr (.inl ⟨hi, hw, by simpa using hc, ?_⟩))
        simpa using h.symm
    · next hw =>
      refine .inr (.inl ⟨hi, by simpa using hw, ?_⟩)
      simpa using h.symm

/-- With the write cursor in range a serviced edge always completes. -/
theorem serviceEdge_completes (s : State) (hw : s.wr < s.params.slots) : ∃ t, serviceEdge s = .next t := by
  unfold serviceEdge judgePulse acceptPulse
  split
  · exact ⟨_, rfl⟩
  · split
    · split
      · rw [ringPut_eq]; simp [hw]
      · exact ⟨_, rfl⟩
    · exact ⟨_, rfl⟩

/-- What no serviced edge touches, whatever the pulse was. -/
theorem serviceEdge_frame {s t : State} (h : serviceEdge s = .next t) :
    t.params = s.params ∧ t.port = s.port ∧ t.requests = s.requests ∧ t.edgeEn = s.edgeEn ∧
    t.edgePend = s.edgePend ∧ t.inited = s.inited ∧ t.resp = s.resp := by
  rcases serviceEdge_next h with ⟨_, rfl⟩ | ⟨_, _, rfl⟩ | ⟨_, _, _, rfl⟩ | ⟨_, _, _, _, rfl⟩ <;> simp

/-- What a step reads of the request port. -/
theorem takeRequest_cons {s : State} {w : RequestWord} {ws : List RequestWord} (h : s.requests = w :: ws) :
    takeRequest s = (w, s.setRequests ws) := by simp [takeRequest, h]

theorem takeRequest_nil {s : State} (h : s.requests = []) : takeRequest s = (0x000#12, s) := by
  simp [takeRequest, h]

end Sys2Proof.Machine
end

