-- ==== Sys2Proof/Laws/Exec.lean ====
section
/-! SUPPORT. What one request can do, said once for all sixteen (exec_change): every whole-machine rule is a case
analysis of it, and no proof needs to unfold a meaning again. -/

namespace Sys2Proof.Machine

/-! ### The operands as numbers -/

theorem isOdd_iff (i : Byte) : i.getLsbD 0 = true ↔ i.toNat % 2 = 1 := by
  rw [← BitVec.testBit_toNat]; simp [Nat.testBit_zero]

theorem isCompletion_iff (i : Byte) :
    isCompletion i = true ↔ i.toNat = 34 ∨ (37 ≤ i.toNat ∧ i.toNat % 2 = 1) := by
  simp only [isCompletion, literals, Bool.or_eq_true, Bool.and_eq_true, decide_eq_true_eq, isOdd_iff, BitVec.le_def,
    ← BitVec.toNat_inj]
  simp

theorem isData_iff (i : Byte) : isData i = true ↔ 3 ≤ i.toNat ∧ i.toNat ≤ 34 := by
  simp [isData, literals, BitVec.le_def]

theorem dataBit_eq (e : Byte) : dataBit e = decide (2 ≤ e.toNat) := by simp [dataBit, literals, BitVec.le_def]

/-- The shift as the concatenation `{acc[30:0], b}` of 40_decoder.md R107. -/
theorem shiftIn_eq (a : Acc) (b : Bool) : shiftIn a b = a.extractLsb' 0 31 ++ BitVec.ofBool b := by
  apply BitVec.eq_of_getLsbD_eq
  intro k hk
  cases b <;> simp [shiftIn] <;> grind

/-- The shift as arithmetic: twice the old value plus the bit, at 32 bits. -/
theorem shiftIn_toNat (a : Acc) (b : Bool) : (shiftIn a b).toNat = (2 * a.toNat + b.toNat) % 2 ^ 32 := by
  rw [shiftIn_eq, BitVec.toNat_append, BitVec.extractLsb'_toNat, BitVec.toNat_ofBool, ← Nat.shiftLeft_add_eq_or_of_lt]
  · rw [Nat.shiftLeft_eq]; have := a.isLt; cases b <;> simp <;> omega
  · cases b <;> simp

/-! ### One request -/

/-- The state whose edge a request services: EDGE's own, or for EDGE_ENA the state with the enable set and the latch
cleared (40_decoder.md R100, 43_control.md R162). -/
def servedState (i : Instr) (s : State) : State :=
  if i.op = 0x8#4 then (s.setEdgeEn true).clearPend else s

/-- When a request services an edge. -/
def serves (i : Instr) (s : State) : Prop :=
  s.fault = false ∧ s.inited = true ∧ (i.op = 0x2#4 ∧ s.edgeEn = true ∨ i.op = 0x8#4 ∧ s.edgePend = true)

/-- When a request changes nothing but the response. -/
def inert (i : Instr) (s : State) : Prop :=
  s.fault = true ∨
  (i.op ≠ 0x1#4 ∧ (i.op ∈ [0x2#4, 0x7#4, 0x8#4] → s.inited = false) ∧
    (i.op = 0x3#4 → s.inited = false ∨ s.run = false) ∧ (i.op = 0x4#4 → s.wr = s.rd) ∧
    (i.op = 0x9#4 → s.port = .external))

/-- The state a valid completion pulse leaves, before the response. -/
def completed (s : State) : State :=
  { s with
    idx := s.idx + 1
    acc := accAfter (s.idx + 1#8) s.elapsed s.acc
    rd := if isFull s then nextSlot s.params.slots s.rd else s.rd
    buf := Memory.write s.buf s.wr (commandByte (accAfter (s.idx + 1#8) s.elapsed s.acc))
    wr := nextSlot s.params.slots s.wr
    elapsed := 0
    run := true }

/-- The state a PUT leaves, before the response. -/
def stored (s : State) (b : Byte) : State :=
  { s with
    rd := if isFull s then nextSlot s.params.slots s.rd else s.rd
    buf := Memory.write s.buf s.wr b
    wr := nextSlot s.params.slots s.wr }

/-- Everything one request can do to the state, the response apart. -/
inductive Change (i : Instr) (s : State) : State → Prop where
  | nothing (h : inert i s) : Change i s s
  | arm (ho : i.op = 0x1#4) (hf : s.fault = false) (hi : s.inited = false) : Change i s s.arm
  | doubleInit (ho : i.op = 0x1#4) (hf : s.fault = false) (hi : s.inited = true) :
      Change i s (s.raiseFault fcodeDoubleInit)
  | latch (ho : i.op = 0x2#4) (hf : s.fault = false) (hi : s.inited = true) (he : s.edgeEn = false) :
      Change i s s.latchEdge
  | disable (ho : i.op = 0x7#4) (hf : s.fault = false) (hi : s.inited = true) : Change i s (s.setEdgeEn false)
  | enable (ho : i.op = 0x8#4) (hf : s.fault = false) (hi : s.inited = true) (hp : s.edgePend = false) :
      Change i s (s.setEdgeEn true)
  | overflow (h : serves i s) (hx : s.idx = s.params.idxMax) :
      Change i s ((servedState i s).raiseFault fcodeIdxOverflow)
  | resync (h : serves i s) (hx : s.idx ≠ s.params.idxMax) (hw : window (s.idx + 1#8) s.elapsed = false) :
      Change i s (servedState i s).resync.restart
  | advance (h : serves i s) (hx : s.idx ≠ s.params.idxMax) (hw : window (s.idx + 1#8) s.elapsed = true)
      (hc : isCompletion (s.idx + 1#8) = false) :
      Change i s ((servedState i s).advance (s.idx + 1#8) (accAfter (s.idx + 1#8) s.elapsed s.acc)).restart
  | complete (h : serves i s) (hx : s.idx ≠ s.params.idxMax) (hw : window (s.idx + 1#8) s.elapsed = true)
      (hc : isCompletion (s.idx + 1#8) = true) (hwr : s.wr < s.params.slots) : Change i s (completed (servedState i s))
  | count (ho : i.op = 0x3#4) (hf : s.fault = false) (hi : s.inited = true) (hr : s.run = true)
      (he : s.elapsed < s.params.tTimeout) : Change i s s.countTick
  | timeout (ho : i.op = 0x3#4) (hf : s.fault = false) (hi : s.inited = true) (hr : s.run = true)
      (he : s.params.tTimeout ≤ s.elapsed) : Change i s s.timeout
  | take (ho : i.op = 0x4#4) (hf : s.fault = false) (he : s.wr ≠ s.rd) (hr : s.rd < s.params.slots) :
      Change i s s.advanceRd
  | put (b : Byte) (ho : i = .put b) (hf : s.fault = false) (hp : s.port = .ring) (hwr : s.wr < s.params.slots) :
      Change i s (stored s b)

theorem ringPut_stored (s : State) (b : Byte) :
    ringPut s b = if s.wr < s.params.slots then .next (stored s b) else .fault .noSuchSlot := ringPut_eq s b

/-- A serviced edge, as a change of the request that serviced it. -/
theorem serviceEdge_change {i : Instr} {s u : State} (h : serves i s) (hs : serviceEdge (servedState i s) = .next u) :
    Change i s u := by
  have hb : (servedState i s).idx = s.idx ∧ (servedState i s).elapsed = s.elapsed ∧ (servedState i s).acc = s.acc ∧
      (servedState i s).params = s.params ∧ (servedState i s).wr = s.wr := by
    unfold servedState; split <;> simp
  obtain ⟨h1, h2, h3, h4, h5⟩ := hb
  rcases serviceEdge_next hs with ⟨hx, rfl⟩ | ⟨hx, hw, rfl⟩ | ⟨hx, hw, hc, rfl⟩ | ⟨hx, hw, hc, hwr, rfl⟩
  · exact .overflow h (by rwa [h1, h4] at hx)
  · exact .resync h (by rwa [h1, h4] at hx) (by rwa [h1, h2] at hw)
  · rw [h1, h4] at hx; rw [h1, h2] at hw; rw [h1] at hc
    rw [h1, h2, h3]
    exact .advance h hx hw hc
  · rw [h1, h4] at hx; rw [h1, h2] at hw; rw [h1] at hc; rw [h5, h4] at hwr
    exact .complete h hx hw hc hwr

/-- What a request can do, said once: one of the changes above, and a response. -/
theorem exec_change {i : Instr} {s t : State} (h : exec i s = .next t) : ∃ u r, Change i s u ∧ t = u.respond r := by
  cases i with
  | nop d => exact ⟨s, _, .nothing (.inr (by simp [Instr.op])), by simpa [exec, execNop] using h⟩
  | init d =>
    simp only [exec, execInit] at h
    split at h
    · next hf => exact ⟨s, _, .nothing (.inl hf), by simpa using h⟩
    · next hf =>
      have hf : s.fault = false := by simpa using hf
      split at h
      · next hi => exact ⟨_, _, .doubleInit rfl hf hi, by simpa using h⟩
      · next hi => exact ⟨_, _, .arm rfl hf (by simpa using hi), by simpa using h⟩
  | edge d =>
    simp only [exec, execEdge] at h
    rcases whenArmed_cases s (if s.edgeEn then andThen (serviceEdge s) done else done s.latchEdge) with
      ⟨hn, hb⟩ | ⟨hf, hi, hb⟩ <;> rw [hb] at h
    · exact ⟨s, _, .nothing (hn.imp_right fun hi => by simp [Instr.op, hi]), by simpa using h⟩
    · split at h
      · next he =>
        obtain ⟨u, hu, hd⟩ := andThen_eq_next.1 h
        exact ⟨u, _, serviceEdge_change ⟨hf, hi, .inl ⟨rfl, he⟩⟩ (by simpa [servedState, Instr.op] using hu),
          by simpa using hd⟩
      · next he => exact ⟨_, _, .latch rfl hf hi (by simpa using he), by simpa using h⟩
  | tick d =>
    simp only [exec, execTick] at h
    rcases whenArmed_cases s (done (if s.run then countOrTimeout s else s)) with ⟨hn, hb⟩ | ⟨hf, hi, hb⟩ <;>
      rw [hb] at h
    · exact ⟨s, _, .nothing (hn.imp_right fun hi => by simp [Instr.op, hi]), by simpa using h⟩
    · cases hr : s.run with
      | false => exact ⟨s, _, .nothing (.inr (by simp [Instr.op, hr])), by simpa [hr] using h⟩
      | true =>
        rw [hr, if_pos rfl] at h
        unfold countOrTimeout at h
        split at h
        · next he => exact ⟨_, _, .count rfl hf hi hr he, by simpa using h⟩
        · next he => exact ⟨_, _, .timeout rfl hf hi hr (BitVec.not_lt.1 he), by simpa using h⟩
  | get d =>
    simp only [exec, execGet] at h
    split at h
    · next hf => exact ⟨s, _, .nothing (.inl hf), by simpa using h⟩
    · next hf =>
      split at h
      · next he => exact ⟨s, _, .nothing (.inr (by simpa [Instr.op, isEmpty] using he)), by simpa using h⟩
      · next he =>
        unfold memRead at h
        split at h
        · next hr =>
          exact ⟨_, _, .take rfl (by simpa using hf) (by simpa [isEmpty] using he) hr, by simpa [eq_comm] using h⟩
        · simp at h
  | empty d => exact ⟨s, _, .nothing (.inr (by simp [Instr.op])), by simpa [exec, execEmpty, eq_comm] using h⟩
  | full d => exact ⟨s, _, .nothing (.inr (by simp [Instr.op])), by simpa [exec, execFull, eq_comm] using h⟩
  | edgeDis d =>
    simp only [exec, execEdgeDis] at h
    rcases whenArmed_cases s (done (s.setEdgeEn false)) with ⟨hn, hb⟩ | ⟨hf, hi, hb⟩ <;> rw [hb] at h
    · exact ⟨s, _, .nothing (hn.imp_right fun hi => by simp [Instr.op, hi]), by simpa using h⟩
    · exact ⟨_, _, .disable rfl hf hi, by simpa using h⟩
  | edgeEna d =>
    simp only [exec, execEdgeEna] at h
    rcases whenArmed_cases s (if s.edgePend then andThen (serviceEdge (s.setEdgeEn true).clearPend) done
      else done (s.setEdgeEn true)) with ⟨hn, hb⟩ | ⟨hf, hi, hb⟩ <;> rw [hb] at h
    · exact ⟨s, _, .nothing (hn.imp_right fun hi => by simp [Instr.op, hi]), by simpa using h⟩
    · split at h
      · next hp =>
        obtain ⟨u, hu, hd⟩ := andThen_eq_next.1 h
        exact ⟨u, _, serviceEdge_change ⟨hf, hi, .inr ⟨rfl, hp⟩⟩ (by simpa [servedState, Instr.op] using hu),
          by simpa using hd⟩
      · next hp => exact ⟨_, _, .enable rfl hf hi (by simpa using hp), by simpa using h⟩
  | put b =>
    simp only [exec, execPut] at h
    split at h
    · next hp => exact ⟨s, _, .nothing (.inr (by simp [Instr.op, hp])), by simpa [eq_comm] using h⟩
    · next hp =>
      split at h
      · next hf => exact ⟨s, _, .nothing (.inl hf), by simpa using h⟩
      · next hf =>
        rw [ringPut_stored] at h
        by_cases hw : s.wr < s.params.slots
        · exact ⟨_, _, .put b rfl (by simpa using hf) hp hw, by simpa [hw] using h⟩
        · simp [hw] at h
  | reservedA d => exact ⟨s, _, .nothing (.inr (by simp [Instr.op])), by simpa [exec, execReservedA, reservedCode, eq_comm] using h⟩
  | reservedB d => exact ⟨s, _, .nothing (.inr (by simp [Instr.op])), by simpa [exec, execReservedB, reservedCode, eq_comm] using h⟩
  | reservedC d => exact ⟨s, _, .nothing (.inr (by simp [Instr.op])), by simpa [exec, execReservedC, reservedCode, eq_comm] using h⟩
  | reservedD d => exact ⟨s, _, .nothing (.inr (by simp [Instr.op])), by simpa [exec, execReservedD, reservedCode, eq_comm] using h⟩
  | reservedE d => exact ⟨s, _, .nothing (.inr (by simp [Instr.op])), by simpa [exec, execReservedE, reservedCode, eq_comm] using h⟩
  | reservedF d => exact ⟨s, _, .nothing (.inr (by simp [Instr.op])), by simpa [exec, execReservedF, reservedCode, eq_comm] using h⟩

/-- The response a request gives, as a function of the request and the state (30_encoding.md R74). -/
def answer (i : Instr) (s : State) : Response :=
  match i with
  | .get _ => if s.fault || isEmpty s then nullResponse else answerByte (Memory.read s.buf s.rd)
  | .empty _ => answerTruth (isEmpty s)
  | .full _ => answerTruth (isFull s)
  | .put _ => if s.port = .external then reservedResponse else nullResponse
  | .reservedA _ => reservedResponse
  | .reservedB _ => reservedResponse
  | .reservedC _ => reservedResponse
  | .reservedD _ => reservedResponse
  | .reservedE _ => reservedResponse
  | .reservedF _ => reservedResponse
  | .nop _ => nullResponse
  | .init _ => nullResponse
  | .edge _ => nullResponse
  | .tick _ => nullResponse
  | .edgeDis _ => nullResponse
  | .edgeEna _ => nullResponse

theorem done_resp {s t : State} (h : done s = .next t) : t.resp = nullResponse := by
  rw [done_eq_next.1 h]; rfl

theorem andThen_done_resp {r : Result} {t : State} (h : andThen r done = .next t) : t.resp = nullResponse := by
  obtain ⟨u, -, hu⟩ := andThen_eq_next.1 h
  exact done_resp hu

theorem whenArmed_resp {s t : State} {body : Result} (hb : body = .next t → t.resp = nullResponse)
    (h : whenArmed s body = .next t) : t.resp = nullResponse := by
  rcases whenArmed_cases s body with ⟨-, he⟩ | ⟨-, -, he⟩ <;> rw [he] at h
  · exact done_resp h
  · exact hb h

/-- Every request that completes gives that response. -/
theorem exec_answer {i : Instr} {s t : State} (h : exec i s = .next t) : t.resp = answer i s := by
  cases i with
  | nop d => exact done_resp h
  | init d =>
    simp only [exec, execInit] at h
    split_ifs at h <;> exact done_resp h
  | edge d => exact whenArmed_resp (fun h => by split_ifs at h; exacts [andThen_done_resp h, done_resp h]) h
  | tick d => exact whenArmed_resp done_resp h
  | get d =>
    simp only [exec, execGet] at h
    split_ifs at h with hf he
    · rw [done_resp h]; simp [answer, hf]
    · rw [done_resp h]; simp [answer, he]
    · unfold memRead at h
      split at h
      · cases h; simp [answer, hf, he]
      · simp at h
  | empty d => cases h; rfl
  | full d => cases h; rfl
  | edgeDis d => exact whenArmed_resp done_resp h
  | edgeEna d => exact whenArmed_resp (fun h => by split_ifs at h; exacts [andThen_done_resp h, done_resp h]) h
  | put b =>
    simp only [exec, execPut] at h
    split at h
    · next hp => cases h; simp [answer, hp]
    · next hp =>
      split_ifs at h
      · rw [done_resp h]; simp [answer, hp]
      · rw [andThen_done_resp h]; simp [answer, hp]
  | reservedA d => cases h; rfl
  | reservedB d => cases h; rfl
  | reservedC d => cases h; rfl
  | reservedD d => cases h; rfl
  | reservedE d => cases h; rfl
  | reservedF d => cases h; rfl

/-- An inert request completes, and only the response changes. -/
theorem exec_inert {i : Instr} {s : State} (h : inert i s) : exec i s = .next (s.respond (answer i s)) := by
  rcases h with hf | ⟨h1, h2, h3, h4, h5⟩
  · cases i <;>
      simp [exec, execNop, execInit, execEdge, execTick, execGet, execEmpty, execFull, execEdgeDis, execEdgeEna, execPut,
        execReservedA, execReservedB, execReservedC, execReservedD, execReservedE, execReservedF, reservedCode, done,
        whenArmed, hf, answer]
    split <;> simp_all
  · cases i <;> simp only [Instr.op] at h1 h2 h3 h4 h5 <;> simp at h1 h2 h3 h4 h5 <;>
      simp [exec, execNop, execEdge, execTick, execGet, execEmpty, execFull, execEdgeDis, execEdgeEna, execPut,
        execReservedA, execReservedB, execReservedC, execReservedD, execReservedE, execReservedF, reservedCode, done,
        whenArmed, answer, h2, h4, h5]
    rcases h3 with h3 | h3 <;> simp [h3]

/-- A step is a request performed under legal parameters. -/
theorem step_next {s t : State} (h : step s = .next t) :
    s.params.legal = true ∧ exec (decode (takeRequest s).1) (takeRequest s).2 = .next t := by
  unfold step at h
  split at h
  · next hl => exact ⟨hl, h⟩
  · simp at h

end Sys2Proof.Machine
end

