-- ==== Sys2Proof/Laws/Services.lean ====
section
/-! SUPPORT. The three ways of saying that a request services an edge (the claims' `services`, the case analysis' `serves`,
the arbiter's `servesEdge`) agree, and what such a request is: the service sequence and the null response. -/

namespace Sys2Proof.Machine

/-- A request with EDGE's code is EDGE. -/
theorem op_eq_edge {i : Instr} : i.op = 0x2#4 ↔ ∃ d, i = .edge d := by cases i <;> simp [Instr.op]

/-- A request with EDGE_ENA's code is EDGE_ENA. -/
theorem op_eq_edgeEna {i : Instr} : i.op = 0x8#4 ↔ ∃ d, i = .edgeEna d := by cases i <;> simp [Instr.op]

/-- The state at the moment of service is determined by the request and the state. -/
theorem services_iff {i : Instr} {s u : State} : services i s u ↔ serves i s ∧ u = servedState i s := by
  unfold services serves servedState
  rw [← op_eq_edge, ← op_eq_edgeEna]
  constructor
  · rintro ⟨hi, hf, ⟨ho, he, rfl⟩ | ⟨ho, hp, rfl⟩⟩
    · exact ⟨⟨hf, hi, .inl ⟨ho, he⟩⟩, by rw [ho]; rfl⟩
    · exact ⟨⟨hf, hi, .inr ⟨ho, hp⟩⟩, by rw [ho]; rfl⟩
  · rintro ⟨⟨hf, hi, ⟨ho, he⟩ | ⟨ho, hp⟩⟩, rfl⟩
    · exact ⟨hi, hf, .inl ⟨ho, he, by rw [ho]; rfl⟩⟩
    · exact ⟨hi, hf, .inr ⟨ho, hp, by rw [ho]; rfl⟩⟩

/-- Some state of service exists exactly when the request serves an edge. -/
theorem exists_services_iff {i : Instr} {s : State} : (∃ u, services i s u) ↔ serves i s := by
  simp [services_iff]

/-- What the state of service shares with the state before the request. -/
theorem servedState_same (i : Instr) (s : State) :
    (servedState i s).params = s.params ∧ (servedState i s).idx = s.idx ∧ (servedState i s).elapsed = s.elapsed ∧
    (servedState i s).acc = s.acc ∧ (servedState i s).buf = s.buf ∧ (servedState i s).wr = s.wr ∧
    (servedState i s).rd = s.rd := by
  unfold servedState; split <;> simp

/-- The arbiter's test is the same notion. -/
theorem servesEdge_iff (w : RequestWord) (s : State) : servesEdge w s = true ↔ serves (decode w) s := by
  unfold servesEdge serves
  rw [(decode_fields w).1]
  cases s.inited <;> cases s.fault <;> simp

/-- A request that services an edge is the service sequence and the null response. -/
theorem exec_services {i : Instr} {s u : State} (h : services i s u) : exec i s = andThen (serviceEdge u) done := by
  obtain ⟨hi, hf, ⟨⟨d, rfl⟩, he, rfl⟩ | ⟨⟨d, rfl⟩, hp, rfl⟩⟩ := h
  · simp only [exec, execEdge]; rw [whenArmed_runs _ hf hi, if_pos he]
  · simp only [exec, execEdgeEna]; rw [whenArmed_runs _ hf hi, if_pos hp]; rfl

end Sys2Proof.Machine
end

