-- ==== Sys2Proof/Tests/Slice0.lean ====
section
/-! SUPPORT. The model's own tests: words written out from 30_encoding.md R71, ill-formed words that the canonical form
refuses, single steps whose results are rows of 95_test_vectors.md (each test names its row), and for every statement with
hypotheses a concrete state and operands that meet them. -/

namespace Sys2Proof.Tests

open Sys2Proof Sys2Proof.Machine

/-! ### States -/

/-- The state after `reset ; INIT` (95_test_vectors.md section 0, "Start: armed"). -/
def armed : State := { State.reset with inited := true, edgeEn := true, run := true }

/-- A decoder part of the way through a frame. -/
def midFrame (idx elapsed : Byte) (acc : Acc) : State := { armed with idx := idx, elapsed := elapsed, acc := acc }

/-- The ring buffer taken alone, fresh, with `n` slots (95_test_vectors.md section 2.5). -/
def ringAlone (n : Nat) : State :=
  { State.reset with params := { Params.vectors with slots := n }, port := .ring }

/-- A ring with contents. -/
def withRing (s : State) (wr rd : Nat) (buf : List Host.Cell) : State := { s with wr := wr, rd := rd, buf := buf }

/-- The state of vector C2, faulted by a second INIT. -/
def faulted : State :=
  { withRing (midFrame 34 0 0x00FF46B9) 1 0 [(0, 0x46)] with fault := true, fcode := 1 }

/-- The state of an answer. -/
def after (r : Result) : Option State :=
  match r with
  | .next s => some s
  | .fault _ => none
  | .refused _ => none

/-- The word of the response of an answer. -/
def answered (r : Result) : Option ResponseWord := (after r).map fun s => responseWord s.resp

/-! ### Decoding: words from 30_encoding.md R71 -/

theorem test_decode_nop : decodeTableWord 16 0x000 = some (.nop 0) := by decide
theorem test_decode_init : decodeTableWord 16 0x100 = some (.init 0) := by decide
theorem test_decode_edge : decodeTableWord 16 0x200 = some (.edge 0) := by decide
theorem test_decode_tick : decodeTableWord 16 0x300 = some (.tick 0) := by decide
theorem test_decode_get : decodeTableWord 16 0x400 = some (.get 0) := by decide
theorem test_decode_empty : decodeTableWord 16 0x500 = some (.empty 0) := by decide
theorem test_decode_full : decodeTableWord 16 0x600 = some (.full 0) := by decide
theorem test_decode_edgeDis : decodeTableWord 16 0x700 = some (.edgeDis 0) := by decide
theorem test_decode_edgeEna : decodeTableWord 16 0x800 = some (.edgeEna 0) := by decide
theorem test_decode_put : decodeTableWord 16 0x9A5 = some (.put 0xA5) := by decide
theorem test_decode_reservedA : decodeTableWord 16 0xA00 = some (.reservedA 0) := by decide
theorem test_decode_reservedB : decodeTableWord 16 0xB12 = some (.reservedB 0x12) := by decide
theorem test_decode_reservedC : decodeTableWord 16 0xC00 = some (.reservedC 0) := by decide
theorem test_decode_reservedD : decodeTableWord 16 0xD00 = some (.reservedD 0) := by decide
theorem test_decode_reservedE : decodeTableWord 16 0xE00 = some (.reservedE 0) := by decide
theorem test_decode_reservedF : decodeTableWord 16 0xFFF = some (.reservedF 0xFF) := by decide
theorem test_decode_too_wide : decodeRaw 0x1000 = .error .wordTooWide := by rfl

/-! ### Canonical form: an ill-formed word for each check (30_encoding.md R70) -/

theorem test_wf_nop : (Instr.nop 0xFF).wellFormed = false := by decide
theorem test_wf_init : (Instr.init 1).wellFormed = false := by decide
theorem test_wf_edge : (Instr.edge 0xFF).wellFormed = false := by decide
theorem test_wf_tick : (Instr.tick 0x80).wellFormed = false := by decide
theorem test_wf_get : (Instr.get 1).wellFormed = false := by decide
theorem test_wf_empty : (Instr.empty 2).wellFormed = false := by decide
theorem test_wf_full : (Instr.full 4).wellFormed = false := by decide
theorem test_wf_edgeDis : (Instr.edgeDis 8).wellFormed = false := by decide
theorem test_wf_edgeEna : (Instr.edgeEna 0x10).wellFormed = false := by decide
theorem test_wf_put : (Instr.put 0xFF).wellFormed = true ∧ (Instr.put 0).wellFormed = true := by decide
theorem test_wf_reservedA : (Instr.reservedA 1).wellFormed = false := by decide
theorem test_wf_reservedB : (Instr.reservedB 1).wellFormed = false := by decide
theorem test_wf_reservedC : (Instr.reservedC 1).wellFormed = false := by decide
theorem test_wf_reservedD : (Instr.reservedD 1).wellFormed = false := by decide
theorem test_wf_reservedE : (Instr.reservedE 1).wellFormed = false := by decide
theorem test_wf_reservedF : (Instr.reservedF 1).wellFormed = false := by decide

/-! ### Single steps from the vectors -/

/-- C10. -/
theorem test_nop : after (exec (.nop 0xFF) faulted) = some faulted := by decide

/-- C1. -/
theorem test_init_arms : after (exec (.init 0) State.reset) = some armed := by decide

/-- C2. -/
theorem test_init_twice :
    after (exec (.init 0) (withRing (midFrame 34 0 0x00FF46B9) 1 0 [(0, 0x46)])) = some faulted := by decide

/-- E14: a mid-frame resync clears the accumulator. -/
theorem test_edge_resync : after (exec (.edge 0) (midFrame 17 5 0x00007FFF)) = some (midFrame 1 0 0) := by decide

/-- E19: a completion on a full ring, bit 1 shifted in before the byte is taken, the oldest command evicted. -/
theorem test_edge_completion :
    after (exec (.edge 0) (withRing (midFrame 33 2 0x007FA2DD) 3 0 [(0, 0x11), (1, 0x22), (2, 0x33)])) =
      some (withRing (midFrame 34 0 0x00FF45BB) 0 1 [(0, 0x11), (1, 0x22), (2, 0x33), (3, 0x45)]) := by decide

/-- K3: the last increment. -/
theorem test_tick_counts : after (exec (.tick 0) (midFrame 7 149 0x1A)) = some (midFrame 7 150 0x1A) := by decide

/-- K4: the timeout. -/
theorem test_tick_times_out :
    after (exec (.tick 0) (midFrame 7 150 0x1A)) = some { midFrame 0 0 0 with run := false } := by decide

/-- B10: response word 0x145, the read cursor advanced, the slot not cleared. -/
theorem test_get :
    after (exec (.get 0) (withRing armed 2 0 [(0, 0x45), (1, 0x46)])) =
      some { withRing armed 2 1 [(0, 0x45), (1, 0x46)] with resp := { err := false, valid := true, data := 0x45 } } := by
  decide

/-- B13: the read cursor wraps. -/
theorem test_get_wraps : (after (exec (.get 0) (withRing armed 0 3 [(3, 0x77)]))).map State.rd = some 0 := by decide

/-- 42_ringbuffer.md R142, example. -/
theorem test_empty :
    answered (exec (.empty 0) (withRing armed 2 2 [])) = some 0x101#10 ∧
    answered (exec (.empty 0) (withRing armed 3 2 [(2, 0)])) = some 0x100#10 := by decide

/-- 42_ringbuffer.md R143, example. -/
theorem test_full :
    answered (exec (.full 0) (withRing armed 3 0 [])) = some 0x101#10 ∧
    answered (exec (.full 0) (withRing armed 2 0 [])) = some 0x100#10 := by decide

/-- C3. -/
theorem test_edgeDis : after (exec (.edgeDis 0) armed) = some { armed with edgeEn := false } := by decide

/-- C6: the latched edge is serviced in the same step. -/
theorem test_edgeEna_services :
    after (exec (.edgeEna 0) { midFrame 5 1 3 with edgeEn := false, edgePend := true }) = some (midFrame 6 0 6) := by
  decide

/-- C8: the two writes before the overflow fault stay made. -/
theorem test_edgeEna_overflow :
    after (exec (.edgeEna 0) { midFrame 255 7 3 with edgeEn := false, edgePend := true }) =
      some { midFrame 255 7 3 with fault := true, fcode := 2 } := by decide

/-- B12: a PUT on a full ring. -/
theorem test_put_evicts :
    after (exec (.put 0x44) (withRing (ringAlone 4) 3 0 [(0, 0x11), (1, 0x22), (2, 0x33)])) =
      some (withRing (ringAlone 4) 0 1 [(0, 0x11), (1, 0x22), (2, 0x33), (3, 0x44)]) := by decide

/-- B15: through CORE's external port. -/
theorem test_put_external : answered (exec (.put 0xA5) armed) = some 0x200#10 := by decide

/-- C11. -/
theorem test_reservedA : answered (exec (.reservedA 0) faulted) = some 0x200#10 := by decide
theorem test_reservedB : answered (exec (.reservedB 0x12) State.reset) = some 0x200#10 := by decide
theorem test_reservedC : answered (exec (.reservedC 0) armed) = some 0x200#10 := by decide
theorem test_reservedD : answered (exec (.reservedD 0) armed) = some 0x200#10 := by decide
theorem test_reservedE : answered (exec (.reservedE 0) armed) = some 0x200#10 := by decide
theorem test_reservedF : answered (exec (.reservedF 0xFF) faulted) = some 0x200#10 := by decide

/-- Every boundary of the table of section 2.1. -/
theorem test_window_true :
    ([(1, 0), (2, 0), (2, 9), (3, 0), (3, 4), (18, 4), (34, 4), (35, 49), (36, 4), (37, 109), (38, 4), (39, 109), (254, 4),
      (255, 109)].all fun p => window (BitVec.ofNat 8 p.1) (BitVec.ofNat 8 p.2)) = true := by decide
theorem test_window_false :
    ([(0, 0), (1, 1), (1, 150), (2, 10), (3, 5), (18, 5), (34, 5), (35, 50), (36, 5), (37, 110), (38, 5), (39, 110), (254, 5),
      (255, 110)].any fun p => window (BitVec.ofNat 8 p.1) (BitVec.ofNat 8 p.2)) = false := by decide

/-- 60_exceptions.md R178: all four lines raised before INIT: the tick falls with the first serviced edge. -/
theorem test_arbiter :
    arbitrate State.reset { init := true, edge := true, tick := true, consumer := some 0x400#12 } =
      [0x100#12, 0x200#12, 0x400#12] := by decide

/-- R178 with 00_scope.md R14: the tick falls with a latched edge that EDGE_ENA releases, and stays where EDGE_ENA finds
nothing latched. -/
theorem test_arbiter_released :
    arbitrate { midFrame 5 1 3 with edgeEn := false, edgePend := true }
        { init := false, edge := false, tick := true, consumer := some 0x800#12 } = [0x800#12] ∧
    arbitrate { midFrame 5 1 3 with edgeEn := false }
        { init := false, edge := true, tick := true, consumer := some 0x800#12 } = [0x200#12, 0x800#12] ∧
    arbitrate { midFrame 5 1 3 with edgeEn := false }
        { init := false, edge := false, tick := true, consumer := some 0x800#12 } = [0x300#12, 0x800#12] := by decide

/-! ### Witnesses: the hypotheses of the statements can be met -/

/-- A state in mid-frame with one unread command meets every invariant. -/
theorem inv_busy : (withRing (midFrame 5 2 3) 1 0 [(0, 0x46)]).Inv := by constructor <;> decide

/-- So does a faulted one. -/
theorem inv_faulted : faulted.Inv := by constructor <;> decide

/-- That busy state, with requests waiting. -/
def busyWith (ws : List RequestWord) : State := { withRing (midFrame 5 2 3) 1 0 [(0, 0x46)] with requests := ws }

theorem witness_ResetPutsEveryRegisterAtItsResetValue :
    ∃ s, s = State.reset ∨ ∃ p : Params, s = State.resetWith p := ⟨_, .inl rfl⟩

theorem witness_ResetMeetsTheInvariants :
    Params.vectors.legal = true ∧ (Params.mk 2 110 37).legal = true ∧ (Params.mk 5 255 255).legal = true := by decide

theorem witness_StepKeepsTheInvariants : ∃ s s', State.Inv s ∧ step s = .next s' ∧ s' ≠ s :=
  ⟨busyWith [0x200#12], _, by constructor <;> decide, rfl, by decide⟩

theorem witness_StepAlwaysCompletes : faulted.Inv ∧ faulted.fault = true := ⟨inv_faulted, rfl⟩

theorem witness_StepPerformsTheDecodedRequest :
    armed.params.legal = true ∧ armed.requests = [] ∧ (busyWith [0x200#12]).params.legal = true ∧
    (busyWith [0x200#12]).requests = 0x200#12 :: [] := by decide

theorem witness_StepRejectsIllegalParameters :
    (Params.mk 1 150 255).slots < 2 ∧ (Params.mk 4 109 255).tTimeout.toNat < 110 ∧
    (Params.mk 4 150 36).idxMax.toNat < 37 := by decide

theorem witness_IgnoredDataHasNoEffect :
    0x2FF#12 &&& 0xF00#12 = 0x200#12 &&& 0xF00#12 ∧ 0x2FF#12 &&& 0xF00#12 ≠ 0x900#12 := by decide

theorem witness_EveryRequestCompletes : armed.wr < armed.params.slots ∧ armed.rd < armed.params.slots := by decide

theorem witness_ReservedCodesAnswerErr :
    ∃ t, t = { armed with resp := { err := true, valid := false, data := 0 } } ∧ armed.port = .external := ⟨_, rfl, rfl⟩

theorem witness_InitArmsOnceThenFaults :
    faulted.fault = true ∧ (armed.fault = false ∧ armed.inited = true) ∧
    (State.reset.fault = false ∧ State.reset.inited = false) := by decide

theorem witness_EdgeDisDisables :
    faulted.fault = true ∧ State.reset.inited = false ∧ (armed.fault = false ∧ armed.inited = true) := by decide

theorem witness_EdgeEnaServicesALatchedEdge :
    faulted.fault = true ∧ State.reset.inited = false ∧
    (armed.fault = false ∧ armed.inited = true ∧ armed.edgePend = false) ∧
    (fun s : State => s.fault = false ∧ s.inited = true ∧ s.edgePend = true)
      { midFrame 5 1 3 with edgeEn := false, edgePend := true } := by decide

theorem witness_GuardedReadLeavesWhatGetLeaves :
    ∃ t, (busyWith []).params.legal = true ∧ (busyWith []).takesEdges ∧ (busyWith []).edgePend = false ∧
      exec (.get 0) { busyWith [] with requests := [0x300#12] } = .next t ∧ t.resp.valid = true :=
  ⟨_, rfl, by decide, rfl, rfl, rfl⟩

theorem witness_UnservicedEdgeIsInertOrLatched :
    faulted.fault = true ∧ State.reset.inited = false ∧
    (fun s : State => s.fault = false ∧ s.inited = true ∧ s.edgeEn = false) { armed with edgeEn := false } := by decide

/-- Both ways of servicing an edge at `IDX_MAX`, here 255. -/
theorem witness_ServicedEdgeAtIdxMaxOverflows :
    (services (.edge 0) (midFrame 255 150 0) (midFrame 255 150 0) ∧ (midFrame 255 150 0).idx = armed.params.idxMax) ∧
    services (.edgeEna 0) { midFrame 255 7 3 with edgeEn := false, edgePend := true } (midFrame 255 7 3) :=
  ⟨⟨⟨rfl, rfl, .inl ⟨⟨_, rfl⟩, rfl, rfl⟩⟩, by decide⟩, rfl, rfl, .inr ⟨⟨_, rfl⟩, rfl, rfl⟩⟩

/-- E5 and C7. -/
theorem witness_InvalidPulseResyncs :
    (services (.edge 0) (midFrame 1 10 0) (midFrame 1 10 0) ∧ (midFrame 1 10 0).idx ≠ armed.params.idxMax ∧
      window ((midFrame 1 10 0).idx + 1#8) (midFrame 1 10 0).elapsed = false) ∧
    (services (.edgeEna 0) { midFrame 5 6 3 with edgeEn := false, edgePend := true } (midFrame 5 6 3) ∧
      (midFrame 5 6 3).idx ≠ armed.params.idxMax ∧ window ((midFrame 5 6 3).idx + 1#8) (midFrame 5 6 3).elapsed = false) :=
  ⟨⟨⟨rfl, rfl, .inl ⟨⟨_, rfl⟩, rfl, rfl⟩⟩, by decide, by decide⟩,
    ⟨rfl, rfl, .inr ⟨⟨_, rfl⟩, rfl, rfl⟩⟩, by decide, by decide⟩

/-- E4 (no completion) and E15, E24 (the first two completion indices, 34 and 37). -/
theorem witness_ValidPulseAdvancesAndShifts :
    (services (.edge 0) (midFrame 1 9 0) (midFrame 1 9 0) ∧ (midFrame 1 9 0).idx ≠ armed.params.idxMax ∧
      window ((midFrame 1 9 0).idx + 1#8) (midFrame 1 9 0).elapsed = true ∧
      ¬ completesFrame ((midFrame 1 9 0).idx + 1#8)) ∧
    (services (.edge 0) (midFrame 33 1 0x007FA2DD) (midFrame 33 1 0x007FA2DD) ∧
      window ((midFrame 33 1 0x007FA2DD).idx + 1#8) (midFrame 33 1 0x007FA2DD).elapsed = true ∧
      completesFrame ((midFrame 33 1 0x007FA2DD).idx + 1#8) ∧ armed.wr < armed.params.slots) ∧
    window ((midFrame 36 109 0).idx + 1#8) (midFrame 36 109 0).elapsed = true ∧
    completesFrame ((midFrame 36 109 0).idx + 1#8) :=
  ⟨⟨⟨rfl, rfl, .inl ⟨⟨_, rfl⟩, rfl, rfl⟩⟩, by decide, by decide, by decide⟩,
    ⟨⟨rfl, rfl, .inl ⟨⟨_, rfl⟩, rfl, rfl⟩⟩, by decide, by decide, by decide⟩, by decide, by decide⟩

/-- E15 meets the first part and E17 (an invalid 34th pulse) the second. -/
theorem witness_CompletionPulsePushesTheCommandByte :
    (services (.edge 0) (midFrame 33 1 0x007FA2DD) (midFrame 33 1 0x007FA2DD) ∧
      (midFrame 33 1 0x007FA2DD).idx ≠ armed.params.idxMax ∧
      window ((midFrame 33 1 0x007FA2DD).idx + 1#8) (midFrame 33 1 0x007FA2DD).elapsed = true ∧
      completesFrame ((midFrame 33 1 0x007FA2DD).idx + 1#8) ∧ armed.wr < armed.params.slots) ∧
    (∃ t, services (.edge 0) (midFrame 33 5 0x007FA2DD) (midFrame 33 5 0x007FA2DD) ∧
      exec (.edge 0) (midFrame 33 5 0x007FA2DD) = .next t ∧
      window ((midFrame 33 5 0x007FA2DD).idx + 1#8) (midFrame 33 5 0x007FA2DD).elapsed = false) :=
  ⟨⟨⟨rfl, rfl, .inl ⟨⟨_, rfl⟩, rfl, rfl⟩⟩, by decide, by decide, by decide, by decide⟩,
    _, ⟨rfl, rfl, .inl ⟨⟨_, rfl⟩, rfl, rfl⟩⟩, rfl, by decide⟩

/-- A pulse that completes nothing; an edge latched, and an EDGE_ENA
with nothing latched, in states whose window and completion hold. -/
theorem witness_EdgeOperationsFrame :
    (∃ t, (Instr.edge 0).op = 0x2#4 ∧ exec (.edge 0) (midFrame 17 2 0x7FFF) = .next t ∧ t.acc = 0xFFFF ∧
      ¬ ∃ u, services (.edge 0) (midFrame 17 2 0x7FFF) u ∧ u.idx ≠ u.params.idxMax ∧
        window (u.idx + 1#8) u.elapsed = true ∧ completesFrame (u.idx + 1#8)) ∧
    (∃ t, exec (.edge 0) { midFrame 33 2 0x007FA2DD with edgeEn := false } = .next t ∧ t.edgePend = true ∧
      ¬ ∃ u, services (.edge 0) { midFrame 33 2 0x007FA2DD with edgeEn := false } u) ∧
    (∃ t, exec (.edgeEna 0) (midFrame 33 2 0x007FA2DD) = .next t ∧ (Instr.edgeEna 0).op = 0x8#4 ∧
      ¬ ∃ u, services (.edgeEna 0) (midFrame 33 2 0x007FA2DD) u) := by
  refine ⟨⟨_, rfl, rfl, by decide, ?_⟩, ⟨_, rfl, rfl, ?_⟩, ⟨_, rfl, rfl, ?_⟩⟩
  · rintro ⟨u, hs, -, -, hc⟩
    obtain ⟨-, rfl⟩ := services_iff.1 hs
    exact absurd hc (by decide)
  · rw [exists_services_iff]; unfold serves; decide
  · rw [exists_services_iff]; unfold serves; decide

theorem witness_FirstEdgeAfterIdleIgnoresElapsed :
    armed.takesEdges ∧ armed.idx = 0 ∧ armed.acc = 0 ∧ armed.params.idxMax ≠ 0 := by decide

/-- E20. -/
theorem witness_AccumulatorStaysPastTheFrame :
    ∃ t, exec (.edge 0) (midFrame 34 49 0x00FF45BA) = .next t ∧ 35 ≤ t.idx.toNat := ⟨_, rfl, by decide⟩

theorem witness_IdxMovesOnlyAsListed :
    ∃ t, exec (.edge 0) (midFrame 17 2 0x7FFF) = .next t ∧ t.idx = 18 := ⟨_, rfl, by decide⟩

theorem witness_FrameIsAccepted :
    ∃ (sync : Nat) (gaps : List Nat), armed.params.legal = true ∧ armed.takesEdges ∧ armed.idx = 0 ∧ armed.acc = 0 ∧
      armed.wr < armed.params.slots ∧ sync < 10 ∧ gaps.length = 32 ∧ ∀ g ∈ gaps, g < 5 :=
  ⟨9, List.replicate 16 0 ++ List.replicate 16 4, by decide⟩

theorem witness_NecFrameDeliversItsCommand :
    armed.params.legal = true ∧ armed.takesEdges ∧ armed.idx = 0 ∧ armed.acc = 0 ∧ armed.wr < armed.params.slots ∧
    armed.rd = armed.wr := by decide

/-- K10, K9, K5; K3; K4. -/
theorem witness_TickCountsOrTimesOut :
    (faulted.fault = true ∧ State.reset.inited = false ∧ ({ armed with run := false } : State).run = false) ∧
    (armed.fault = false ∧ armed.inited = true ∧ armed.run = true) ∧
    (midFrame 7 149 0x1A).elapsed.toNat < armed.params.tTimeout.toNat ∧
    armed.params.tTimeout.toNat ≤ (midFrame 7 150 0x1A).elapsed.toNat := by decide

theorem witness_SilenceReachesIdle :
    armed.params.legal = true ∧ armed.inited = true ∧ armed.fault = false ∧ armed.run = true ∧
    armed.elapsed ≤ armed.params.tTimeout ∧ 1 ≤ 150 ∧ 150 ≤ armed.params.tTimeout.toNat - armed.elapsed.toNat := by decide

theorem witness_TimeoutIsInvisibleAwayFromIdxMax :
    ∃ t, (midFrame 254 150 5).params.legal = true ∧ (midFrame 254 150 5).takesEdges ∧ (midFrame 254 150 5).run = true ∧
      (midFrame 254 150 5).elapsed = (midFrame 254 150 5).params.tTimeout ∧
      (midFrame 254 150 5).idx < (midFrame 254 150 5).params.idxMax ∧ exec (.tick 0) (midFrame 254 150 5) = .next t :=
  ⟨_, by decide, by decide, rfl, by decide, by decide, rfl⟩

/-- B2, with the fewest slots allowed, and the last slot of four. -/
theorem witness_PutStoresAtTheWriteCursor :
    ((ringAlone 2).port = .ring ∧ (ringAlone 2).fault = false ∧ (ringAlone 2).wr < (ringAlone 2).params.slots) ∧
    (withRing (ringAlone 4) 3 0 []).wr < (ringAlone 4).params.slots := by decide

/-- A GET, and an EDGE that is latched. -/
theorem witness_ExternalPutIsRefused :
    (∃ t, armed.port = .external ∧ exec (.get 0) armed = .next t ∧ ¬ ∃ u, services (.get 0) armed u) ∧
    (∃ t, exec (.edge 0) { armed with edgeEn := false } = .next t ∧
      ¬ ∃ u, services (.edge 0) { armed with edgeEn := false } u) := by
  refine ⟨⟨_, rfl, rfl, ?_⟩, ⟨_, rfl, ?_⟩⟩ <;> rw [exists_services_iff] <;> unfold serves <;> decide

/-- Faulted; empty; the last slot of four. -/
theorem witness_GetTakesTheOldestOrNone :
    faulted.fault = true ∧ armed.wr = armed.rd ∧
    (fun s : State => s.fault = false ∧ s.wr ≠ s.rd ∧ s.rd < s.params.slots) (withRing armed 0 3 [(3, 0x77)]) := by decide

/-- States that no trace reaches. -/
theorem witness_RingAccessOutsideItsSlotsStops :
    (fun s : State => s.fault = false ∧ s.wr ≠ s.rd ∧ s.params.slots ≤ s.rd) (withRing armed 0 4 []) ∧
    (fun s : State => s.port = .ring ∧ s.fault = false ∧ s.params.slots ≤ s.wr) (withRing (ringAlone 4) 4 0 []) ∧
    (fun s : State => s.port = .ring ∧ s.fault = true) { ringAlone 4 with fault := true } := by decide

theorem witness_CountBoundsAndPredicates :
    (fun s : State => 2 ≤ s.params.slots ∧ s.wr < s.params.slots ∧ s.rd < s.params.slots) (withRing armed 3 0 []) ∧
    (fun s : State => 2 ≤ s.params.slots ∧ s.wr < s.params.slots ∧ s.rd < s.params.slots) (ringAlone 2) := by decide

/-- A full ring of four on its own port, and a completion pulse on a full ring (E19). -/
theorem witness_PushEnqueuesDroppingTheOldest :
    (fun s : State => 2 ≤ s.params.slots ∧ s.wr < s.params.slots ∧ s.rd < s.params.slots ∧ s.fault = false ∧ s.port = .ring)
      (withRing (ringAlone 4) 3 0 [(0, 0x11), (1, 0x22), (2, 0x33)]) ∧
    (fun s : State => 2 ≤ s.params.slots ∧ s.wr < s.params.slots ∧ s.rd < s.params.slots ∧ s.fault = false ∧
        s.inited = true ∧ s.edgeEn = true ∧ s.idx ≠ s.params.idxMax ∧ window (s.idx + 1#8) s.elapsed = true ∧
        completesFrame (s.idx + 1#8))
      (withRing (midFrame 33 2 0x007FA2DD) 3 0 [(0, 0x11), (1, 0x22), (2, 0x33)]) := by decide

theorem witness_GetDequeuesTheOldest :
    (fun s : State => 2 ≤ s.params.slots ∧ s.wr < s.params.slots ∧ s.rd < s.params.slots ∧ s.fault = false ∧
        unread s = [some 0x45, some 0x46]) (withRing armed 2 0 [(0, 0x45), (1, 0x46)]) ∧
    unread armed = [] := by decide

/-- One request for each clause; for the second, a pulse that completes nothing. -/
theorem witness_OtherRequestsKeepTheUnreadCommands :
    (∃ t, exec (.tick 0) (busyWith []) = .next t ∧ (Instr.tick 0).op ∉ [0x1#4, 0x2#4, 0x4#4, 0x8#4, 0x9#4]) ∧
    (∃ t, exec (.edge 0) (busyWith []) = .next t ∧ (Instr.edge 0).op = 0x2#4 ∧
      ¬ ∃ u, services (.edge 0) (busyWith []) u ∧ u.idx ≠ u.params.idxMax ∧
        window (u.idx + 1#8) u.elapsed = true ∧ completesFrame (u.idx + 1#8)) ∧
    (∃ t, exec (.get 0) armed = .next t ∧ (Instr.get 0).op = 0x4#4 ∧ armed.wr = armed.rd) ∧
    (∃ t, exec (.get 0) faulted = .next t ∧ faulted.fault = true) ∧
    (∃ t, exec (.put 1) (busyWith []) = .next t ∧ (Instr.put 1).op = 0x9#4 ∧ (busyWith []).port = .external) ∧
    (∃ t, exec (.init 0) (busyWith []) = .next t ∧ (Instr.init 0).op = 0x1#4 ∧ (busyWith []).inited = true) ∧
    (∃ t, exec (.init 0) State.reset = .next t ∧ (Instr.init 0).op = 0x1#4 ∧ State.reset.inited = false ∧
      State.reset.fault = false ∧ 2 ≤ State.reset.params.slots) := by
  refine ⟨⟨_, rfl, by decide⟩, ⟨_, rfl, rfl, ?_⟩, ⟨_, rfl, rfl, rfl⟩, ⟨_, rfl, rfl⟩, ⟨_, rfl, rfl, rfl⟩, ⟨_, rfl, rfl, rfl⟩,
    ⟨_, rfl, rfl, rfl, rfl, by decide⟩⟩
  rintro ⟨u, hs, -, -, hc⟩
  obtain ⟨-, rfl⟩ := services_iff.1 hs
  exact absurd hc (by decide)

/-- Two states that differ in slot 3, which holds no unread command. -/
theorem witness_StaleSlotsAreUnobservable :
    ∃ s', (fun s t : State => 2 ≤ s.params.slots ∧ s.wr < s.params.slots ∧ s.rd < s.params.slots ∧
        agreeButStaleSlots s t ∧ s ≠ t)
      (withRing armed 1 0 [(0, 0x46)]) (withRing armed 1 0 [(0, 0x46), (3, 0x99)]) ∧
      exec (.get 0) (withRing armed 1 0 [(0, 0x46)]) = .next s' :=
  ⟨_, by decide, rfl⟩

theorem witness_FaultsAreRaisedExactlyWhereNamed :
    ∃ t, armed.fault = false ∧ exec (.init 0) armed = .next t ∧ t.fault = true := ⟨_, rfl, rfl, rfl⟩

theorem witness_FaultEntryIsPrecise :
    ∃ t, (midFrame 255 150 0).fault = false ∧ exec (.edge 0) (midFrame 255 150 0) = .next t ∧ t.fault = true :=
  ⟨_, rfl, rfl, by decide⟩

theorem witness_FaultFreezesTheState : faulted.fault = true := by decide

theorem witness_FaultAndInitedAreSticky :
    ∃ t, exec (.init 0) faulted = .next t ∧ faulted.fault = true ∧ faulted.inited = true := ⟨_, rfl, rfl, rfl⟩

theorem witness_InertBeforeInit :
    (fun s : State => s.params.legal = true ∧ s.port = .external ∧ s.inited = false ∧ s.wr = 0 ∧ s.rd = 0 ∧ s.fault = false)
      State.reset ∧ (Instr.init 0).op = 0x1#4 ∧ (Instr.edge 0).op ≠ 0x1#4 := by decide

theorem witness_EveryRequestReturnsAResponseWord :
    ∃ t, exec (.get 0) (busyWith []) = .next t ∧ responseWord t.resp = 0x146#10 := ⟨_, rfl, by decide⟩

theorem witness_ResponsesFollowTheTable :
    ∃ t, (busyWith []).port = .external ∧ exec (.get 0) (busyWith []) = .next t ∧ (busyWith []).wr ≠ (busyWith []).rd ∧
      (busyWith []).fault = false := ⟨_, rfl, rfl, by decide, rfl⟩

theorem witness_RegistersHaveOwners :
    ∃ t, exec (.get 0) (busyWith []) = .next t ∧ (Instr.get 0).op ∈ [0x4#4, 0x5#4, 0x6#4, 0x9#4] :=
  ⟨_, rfl, by decide⟩

theorem witness_ConfigurationIsFixed : ∃ t, exec (.init 0) State.reset = .next t := ⟨_, rfl⟩

/-- A window with an edge, a tick and a GET in it. -/
theorem witness_DisableWindowHoldsOffTheProducer :
    ∃ t, (fun s : State => s.inited = true ∧ s.edgeEn = false ∧ s.port = .external ∧
        ∀ w ∈ s.requests, opField w ≠ 0x8#4)
      { busyWith [0x200#12, 0x300#12, 0x400#12] with edgeEn := false } ∧
      Host.Core.run Sys2Proof.core 3 { busyWith [0x200#12, 0x300#12, 0x400#12] with edgeEn := false } = .next t :=
  ⟨_, by decide, rfl⟩

/-- Both values of the premise: a releasing EDGE_ENA, and a cycle in which nothing is serviced. -/
theorem witness_ArbiterOrdersSimultaneousRequests :
    (fun (s : State) (l : Lines) => s.fault = false ∧ l.init = false ∧ s.inited = true ∧
        l.consumer.map opField = some 0x8#4 ∧ s.edgePend = true)
      { armed with edgeEn := false, edgePend := true } (Lines.mk false false true (some 0x800#12)) ∧
    (fun (s : State) (l : Lines) => s.inited = false ∧ l.init = false ∧ l.tick = true)
      State.reset (Lines.mk false true true none) := by decide

/-- INIT once, from reset. -/
theorem witness_InitOnceNeverFaultsAsDouble :
    ∃ t, (fun s : State => s.fault = false ∧ s.fcode = 0 ∧ initCount s.requests ≤ (if s.inited = true then 0 else 1))
      { State.reset with requests := [0x100#12, 0x200#12] } ∧
      Host.Core.run Sys2Proof.core 2 { State.reset with requests := [0x100#12, 0x200#12] } = .next t :=
  ⟨_, by decide, rfl⟩

/-- One edge inside a closed window. -/
theorem witness_BriefWindowsLoseNoEdge :
    ∃ t, (fun s : State => s.edgePend = false ∧ (s.inited = true → s.edgeEn = true) ∧ windowsBrief none s.requests = true)
      { armed with requests := [0x700#12, 0x200#12, 0x800#12] } ∧
      Host.Core.run Sys2Proof.core 1 { armed with requests := [0x700#12, 0x200#12, 0x800#12] } = .next t ∧
      t.requests = 0x200#12 :: [0x800#12] ∧ opField 0x200#12 = 0x2#4 :=
  ⟨_, by decide, rfl, rfl, by decide⟩

end Sys2Proof.Tests
end

section
/-! Scope: what a step is (00_scope.md R5, R8, R12), and that every request completes while both cursors are in range
(20_memory.md R62). -/

namespace Sys2Proof

/-- The constraints of 00_scope.md R8 over the numbers the parameters stand for. -/
theorem Params.legal_iff (p : Params) :
    p.legal = true ↔ 2 ≤ p.slots ∧ 110 ≤ p.tTimeout.toNat ∧ 37 ≤ p.idxMax.toNat := by
  simp [Params.legal, BitVec.le_def, and_assoc]

end Sys2Proof

namespace Sys2Proof.Machine

/-! ### One step -/

theorem step_legal {s : State} (h : s.params.legal = true) :
    step s = exec (decode (takeRequest s).1) (takeRequest s).2 := if_pos h

theorem step_illegal {s : State} (h : ¬ s.params.legal = true) : step s = .refused .illegalParams := if_neg h

/-- The idle slot's word is NOP's (30_encoding.md R71). -/
theorem decode_idleWord : decode 0x000#12 = .nop 0 := by decide

/-- Taking a request changes the trace alone. -/
theorem takeRequest_snd (s : State) : (takeRequest s).2 = s.setRequests s.requests.tail := by
  cases h : s.requests with
  | nil => rw [takeRequest_nil h, List.tail_nil, ← h]; rfl
  | cons w ws => rw [takeRequest_cons h, List.tail_cons]

/-! ### Completion -/

theorem done_completes (s : State) : ∃ t, done s = .next t := ⟨_, rfl⟩

theorem whenArmed_completes {s : State} {body : Result} (h : ∃ t, body = .next t) :
    ∃ t, whenArmed s body = .next t := by
  rcases whenArmed_cases s body with ⟨-, hb⟩ | ⟨-, -, hb⟩ <;> rw [hb]
  · exact done_completes s
  · exact h

theorem andThen_done_completes {r : Result} (h : ∃ u, r = .next u) : ∃ t, andThen r done = .next t := by
  obtain ⟨u, rfl⟩ := h
  exact done_completes u

theorem ringPut_completes {s : State} (b : Byte) (hw : s.wr < s.params.slots) : ∃ t, ringPut s b = .next t :=
  ⟨_, by rw [ringPut_stored, if_pos hw]⟩

theorem execInit_completes (d : Byte) (s : State) : ∃ t, execInit d s = .next t := by
  unfold execInit
  split_ifs
  · exact done_completes s
  · exact done_completes _
  · exact done_completes _

theorem execEdge_completes (d : Byte) {s : State} (hw : s.wr < s.params.slots) : ∃ t, execEdge d s = .next t := by
  apply whenArmed_completes
  split_ifs
  · exact andThen_done_completes (serviceEdge_completes s hw)
  · exact done_completes _

theorem execEdgeEna_completes (d : Byte) {s : State} (hw : s.wr < s.params.slots) :
    ∃ t, execEdgeEna d s = .next t := by
  apply whenArmed_completes
  split_ifs
  · exact andThen_done_completes (serviceEdge_completes _ hw)
  · exact done_completes _

theorem execGet_completes (d : Byte) {s : State} (hr : s.rd < s.params.slots) : ∃ t, execGet d s = .next t := by
  unfold execGet memRead
  split_ifs
  · exact done_completes s
  · exact done_completes s
  · exact ⟨_, rfl⟩

theorem execPut_completes (b : Byte) {s : State} (hw : s.wr < s.params.slots) : ∃ t, execPut b s = .next t := by
  unfold execPut
  split
  · exact ⟨_, rfl⟩
  · split_ifs
    · exact done_completes s
    · exact andThen_done_completes (ringPut_completes b hw)

/-- Every request completes while both cursors are in range: the ring accesses of a serviced edge, GET and PUT are the
only places where the machine can stop. -/
theorem exec_completes (i : Instr) {s : State} (hw : s.wr < s.params.slots) (hr : s.rd < s.params.slots) :
    ∃ t, exec i s = .next t := by
  cases i with
  | init d => exact execInit_completes d s
  | edge d => exact execEdge_completes d hw
  | edgeEna d => exact execEdgeEna_completes d hw
  | get d => exact execGet_completes d hr
  | put b => exact execPut_completes b hw
  | tick d => exact whenArmed_completes (done_completes _)
  | edgeDis d => exact whenArmed_completes (done_completes _)
  | nop d => exact done_completes s
  | empty d => exact ⟨_, rfl⟩
  | full d => exact ⟨_, rfl⟩
  | reservedA d => exact ⟨_, rfl⟩
  | reservedB d => exact ⟨_, rfl⟩
  | reservedC d => exact ⟨_, rfl⟩
  | reservedD d => exact ⟨_, rfl⟩
  | reservedE d => exact ⟨_, rfl⟩
  | reservedF d => exact ⟨_, rfl⟩

/-! ### The obligations -/

/-- Settles O4: the invariants give legal parameters and both cursors in range, and taking the request moves no
cursor. -/
theorem stepAlwaysCompletes : Obligations.StepAlwaysCompletes := by
  intro s hs
  rw [step_legal hs.legal, takeRequest_snd]
  exact exec_completes _ hs.wrInRange hs.rdInRange

/-- Settles O5, by the two cases of the trace. -/
theorem stepPerformsTheDecodedRequest : Obligations.StepPerformsTheDecodedRequest := by
  refine ⟨fun s w ws hl hq => ?_, fun s hl hq => ?_⟩
  · rw [step_legal hl, takeRequest_cons hq]; rfl
  · rw [step_legal hl, takeRequest_nil hq, decode_idleWord]

/-- Settles O6: each of the three premises breaks one of the constraints. -/
theorem stepRejectsIllegalParameters : Obligations.StepRejectsIllegalParameters := by
  intro s hs
  have hl : ¬ s.params.legal = true := by
    rw [Params.legal_iff]
    omega
  exact step_illegal hl

end Sys2Proof.Machine
end

section
/-! The other direction of `exec_change`: what a change and a request determine (30_encoding.md R71, R74). -/

namespace Sys2Proof.Machine

/-! ### Requests by their code -/

/-- A request with INIT's code is INIT. -/
theorem op_eq_init {i : Instr} : i.op = 0x1#4 ↔ ∃ d, i = .init d := by cases i <;> simp [Instr.op]

/-- A request with TICK's code is TICK. -/
theorem op_eq_tick {i : Instr} : i.op = 0x3#4 ↔ ∃ d, i = .tick d := by cases i <;> simp [Instr.op]

/-- A request with GET's code is GET. -/
theorem op_eq_get {i : Instr} : i.op = 0x4#4 ↔ ∃ d, i = .get d := by cases i <;> simp [Instr.op]

/-- A request with EDGE_DIS's code is EDGE_DIS. -/
theorem op_eq_edgeDis {i : Instr} : i.op = 0x7#4 ↔ ∃ d, i = .edgeDis d := by cases i <;> simp [Instr.op]

/-- Only EDGE and EDGE_ENA service an edge (00_scope.md R14). -/
theorem serves.op {i : Instr} {s : State} (h : serves i s) : i.op = 0x2#4 ∨ i.op = 0x8#4 := by
  obtain ⟨-, -, ⟨ho, -⟩ | ⟨ho, -⟩⟩ := h
  · exact .inl ho
  · exact .inr ho

theorem serves.inited {i : Instr} {s : State} (h : serves i s) : s.inited = true := h.2.1

theorem serves.unfaulted {i : Instr} {s : State} (h : serves i s) : s.fault = false := h.1

/-- What else the state of service shares with the state before the request: `servedState_same` gives the registers the
sequence works on. -/
theorem servedState_frame (i : Instr) (s : State) :
    (servedState i s).port = s.port ∧ (servedState i s).requests = s.requests ∧ (servedState i s).inited = s.inited ∧
    (servedState i s).fault = s.fault ∧ (servedState i s).fcode = s.fcode ∧ (servedState i s).resp = s.resp := by
  unfold servedState; split <;> simp

/-- The service sequence by its outcomes (40_decoder.md R101): `serviceEdge_next` as an equation. -/
theorem serviceEdge_eq (s : State) :
    serviceEdge s =
      if s.idx = s.params.idxMax then .next (s.raiseFault fcodeIdxOverflow)
      else if window (s.idx + 1#8) s.elapsed = true then
        if isCompletion (s.idx + 1#8) = true then
          if s.wr < s.params.slots then .next (completed s) else .fault .noSuchSlot
        else .next (s.advance (s.idx + 1#8) (accAfter (s.idx + 1#8) s.elapsed s.acc)).restart
      else .next s.resync.restart := by
  unfold serviceEdge judgePulse acceptPulse
  split_ifs with hx hv hc hw
  · rfl
  · simp only [ringPut_stored, State.advance_wr, State.advance_params, hw, if_true, andThen_next]
    rfl
  · simp [ringPut_stored, hw]
  · rfl
  · rfl

/-- At the state of service, every test of the sequence reads what the state before the request holds. -/
theorem serviceEdge_servedState (i : Instr) (s : State) :
    serviceEdge (servedState i s) =
      if s.idx = s.params.idxMax then .next ((servedState i s).raiseFault fcodeIdxOverflow)
      else if window (s.idx + 1#8) s.elapsed = true then
        if isCompletion (s.idx + 1#8) = true then
          if s.wr < s.params.slots then .next (completed (servedState i s)) else .fault .noSuchSlot
        else .next ((servedState i s).advance (s.idx + 1#8) (accAfter (s.idx + 1#8) s.elapsed s.acc)).restart
      else .next (servedState i s).resync.restart := by
  obtain ⟨hp, hi, he, ha, -, hw, -⟩ := servedState_same i s
  rw [serviceEdge_eq, hp, hi, he, ha, hw]

/-- A request that services an edge completes with whatever the service sequence leaves, and the null response. -/
theorem exec_of_serves {i : Instr} {s u : State} (h : serves i s) (hu : serviceEdge (servedState i s) = .next u) :
    exec i s = .next (u.respond (answer i s)) := by
  have ha : answer i s = nullResponse := by
    rcases h.op with ho | ho
    · obtain ⟨d, rfl⟩ := op_eq_edge.1 ho; rfl
    · obtain ⟨d, rfl⟩ := op_eq_edgeEna.1 ho; rfl
  rw [exec_services (services_iff.2 ⟨h, rfl⟩), hu, andThen_next, ha]
  rfl

/-- Every change happens: the request completes with it and with the answer of the request in that state. -/
theorem exec_of_change {i : Instr} {s u : State} (h : Change i s u) : exec i s = .next (u.respond (answer i s)) := by
  cases h with
  | nothing h => exact exec_inert h
  | arm ho hf hi =>
    obtain ⟨d, rfl⟩ := op_eq_init.1 ho
    simp [exec, execInit, hf, hi, done, answer]
  | doubleInit ho hf hi =>
    obtain ⟨d, rfl⟩ := op_eq_init.1 ho
    simp [exec, execInit, hf, hi, done, answer]
  | latch ho hf hi he =>
    obtain ⟨d, rfl⟩ := op_eq_edge.1 ho
    simp [exec, execEdge, whenArmed_runs _ hf hi, he, done, answer]
  | disable ho hf hi =>
    obtain ⟨d, rfl⟩ := op_eq_edgeDis.1 ho
    simp [exec, execEdgeDis, whenArmed_runs _ hf hi, done, answer]
  | enable ho hf hi hp =>
    obtain ⟨d, rfl⟩ := op_eq_edgeEna.1 ho
    simp [exec, execEdgeEna, whenArmed_runs _ hf hi, hp, done, answer]
  | overflow h hx => exact exec_of_serves h (by rw [serviceEdge_servedState, if_pos hx])
  | resync h hx hv => exact exec_of_serves h (by rw [serviceEdge_servedState, if_neg hx, if_neg (by simp [hv])])
  | advance h hx hv hc =>
    exact exec_of_serves h (by rw [serviceEdge_servedState, if_neg hx, if_pos hv, if_neg (by simp [hc])])
  | complete h hx hv hc hw =>
    exact exec_of_serves h (by rw [serviceEdge_servedState, if_neg hx, if_pos hv, if_pos hc, if_pos hw])
  | count ho hf hi hr he =>
    obtain ⟨d, rfl⟩ := op_eq_tick.1 ho
    simp [exec, execTick, whenArmed_runs _ hf hi, hr, countOrTimeout, he, done, answer]
  | timeout ho hf hi hr he =>
    obtain ⟨d, rfl⟩ := op_eq_tick.1 ho
    simp [exec, execTick, whenArmed_runs _ hf hi, hr, countOrTimeout, BitVec.not_lt.2 he, done, answer]
  | take ho hf he hr =>
    obtain ⟨d, rfl⟩ := op_eq_get.1 ho
    simp [exec, execGet, memRead, isEmpty, hf, he, hr, answer]
  | put b ho hf hp hwr =>
    subst ho
    simp [exec, execPut, hp, hf, ringPut_stored, hwr, done, answer]

/-- A request completes exactly with its changes, each with the answer of the request. -/
theorem exec_next_iff {i : Instr} {s t : State} :
    exec i s = .next t ↔ ∃ u, Change i s u ∧ t = u.respond (answer i s) := by
  constructor
  · intro h
    obtain ⟨u, r, hu, rfl⟩ := exec_change h
    exact ⟨u, hu, by rw [← exec_answer h]; rfl⟩
  · rintro ⟨u, hu, rfl⟩
    exact exec_of_change hu

end Sys2Proof.Machine
end

section
/-! The slots that hold an unread command (10_state.md R29, R32, R38 V9), and what each ring access does to them. -/

namespace Sys2Proof.Machine

/-! ### The cursors and the count -/

/-- In range, the successor of the write cursor meets the read cursor exactly when one slot is left. -/
theorem isFull_iff_unreadCount {s : State} (hw : s.wr < s.params.slots) (hr : s.rd < s.params.slots) :
    isFull s = true ↔ unreadCount s = s.params.slots - 1 := by
  rw [isFull_iff, ← nextSlot, nextSlot_eq hw, unreadCount_eq hw hr]
  split_ifs <;> omega

theorem isEmpty_iff_unreadCount {s : State} (hw : s.wr < s.params.slots) (hr : s.rd < s.params.slots) :
    isEmpty s = true ↔ unreadCount s = 0 := by
  rw [isEmpty_iff, unreadCount_eq hw hr]
  split_ifs <;> omega

theorem unreadCount_lt {s : State} (hw : s.wr < s.params.slots) : unreadCount s < s.params.slots :=
  Nat.mod_lt _ (by omega)

theorem length_unread (s : State) : (unread s).length = unreadCount s := by
  rw [unread, List.length_map, List.length_range]

/-! ### Slots holding an unread command -/

/-- The slot `x` holds an unread command: it is the slot of one of them. -/
def holdsUnread (s : State) (x : Nat) : Prop := ∃ k, k < unreadCount s ∧ unreadSlot s k = x

/-- V9 of 10_state.md R38, slot by slot. -/
theorem unreadWritten_iff {s : State} :
    s.unreadWritten ↔ ∀ x, holdsUnread s x → (Memory.read? s.buf x).isSome = true := by
  constructor
  · rintro h x ⟨k, hk, rfl⟩
    exact h k hk
  · exact fun h k hk => h _ ⟨k, hk, rfl⟩

/-- Agreement but for stale slots, slot by slot. -/
theorem agreeButStaleSlots_iff {s t : State} :
    agreeButStaleSlots s t ↔
      t = s.setBuf t.buf ∧ ∀ x, holdsUnread s x → Memory.read? s.buf x = Memory.read? t.buf x := by
  refine and_congr_right fun _ => ⟨?_, fun h k hk => h _ ⟨k, hk, rfl⟩⟩
  rintro h x ⟨k, hk, rfl⟩
  exact h k hk

/-- In range, the unread commands lie from the read cursor up to the write cursor, around the end of the ring when the
write cursor is the lower one. -/
theorem holdsUnread_iff {s : State} (hw : s.wr < s.params.slots) (hr : s.rd < s.params.slots) {x : Nat} :
    holdsUnread s x ↔
      (s.rd ≤ x ∧ x < s.wr) ∨ (s.wr < s.rd ∧ (x < s.wr ∨ (s.rd ≤ x ∧ x < s.params.slots))) := by
  unfold holdsUnread unreadSlot
  rw [unreadCount_eq hw hr]
  constructor
  · rintro ⟨k, hk, rfl⟩
    rw [mod_eq_sub_or (by split_ifs at hk <;> omega)]
    split_ifs at hk ⊢ <;> omega
  · intro hx
    refine ⟨if s.rd ≤ x then x - s.rd else x + s.params.slots - s.rd, by split_ifs <;> omega, ?_⟩
    rw [mod_eq_sub_or (by split_ifs <;> omega)]
    split_ifs <;> omega

/-- With equal cursors nothing is unread (10_state.md R32). -/
theorem not_holdsUnread_of_wr_eq_rd {s : State} (hr : s.rd < s.params.slots) (h : s.wr = s.rd) (x : Nat) :
    ¬ holdsUnread s x := by
  rw [holdsUnread_iff (h ▸ hr) hr]
  omega

/-- The read cursor's slot holds the oldest unread command. -/
theorem holdsUnread_rd {s : State} (hw : s.wr < s.params.slots) (hr : s.rd < s.params.slots) (h : s.wr ≠ s.rd) :
    holdsUnread s s.rd := by
  rw [holdsUnread_iff hw hr]
  omega

/-- Moving the read cursor off an unread command makes no slot unread. -/
theorem holdsUnread_of_advanceRd {s : State} (hw : s.wr < s.params.slots) (hr : s.rd < s.params.slots) (h : s.wr ≠ s.rd)
    {x : Nat} (hx : holdsUnread s.advanceRd x) : holdsUnread s x := by
  rw [holdsUnread_iff (s := s.advanceRd) hw (nextSlot_lt _ (by omega)), State.advanceRd_wr, State.advanceRd_rd,
    State.advanceRd_params, nextSlot_eq hr] at hx
  rw [holdsUnread_iff hw hr]
  split_ifs at hx <;> omega

@[simp] theorem stored_params (s : State) (b : Byte) : (stored s b).params = s.params := rfl
@[simp] theorem stored_wr (s : State) (b : Byte) : (stored s b).wr = nextSlot s.params.slots s.wr := rfl
@[simp] theorem stored_rd (s : State) (b : Byte) :
    (stored s b).rd = if nextSlot s.params.slots s.wr = s.rd then nextSlot s.params.slots s.rd else s.rd :=
  if_congr decide_eq_true_iff rfl rfl
@[simp] theorem stored_buf (s : State) (b : Byte) : (stored s b).buf = Memory.write s.buf s.wr b := rfl

theorem stored_rd_lt {s : State} (hr : s.rd < s.params.slots) (b : Byte) : (stored s b).rd < s.params.slots := by
  rw [stored_rd]
  split
  · exact nextSlot_lt _ (by omega)
  · exact hr

/-- A PUT makes no slot unread but the one it stores into. -/
theorem holdsUnread_of_stored {s : State} (hw : s.wr < s.params.slots) (hr : s.rd < s.params.slots) {b : Byte} {x : Nat}
    (hx : holdsUnread (stored s b) x) : x = s.wr ∨ holdsUnread s x := by
  rw [holdsUnread_iff (s := stored s b) (nextSlot_lt _ (by omega)) (stored_rd_lt hr b), stored_wr, stored_rd,
    stored_params, nextSlot_eq hw, nextSlot_eq hr] at hx
  rw [holdsUnread_iff hw hr]
  split_ifs at hx <;> omega

end Sys2Proof.Machine
end

section
/-! The invariants of 10_state.md R38: at reset, and kept by each register update where an operation makes it. -/

namespace Sys2Proof.Machine

/-! ### Ways to meet a clause -/

theorem stoppedIsIdle_of_run {s : State} (h : s.run = true) : s.stoppedIsIdle :=
  fun _ hr => absurd (h.symm.trans hr) (by decide)

theorem accBounded_of_acc_zero {s : State} (h : s.acc = 0) : s.accBounded :=
  ⟨fun _ => h, fun _ _ => by rw [h]; exact Nat.two_pow_pos _⟩

theorem inertBeforeInit_of_inited {s : State} (h : s.inited = true) : s.inertBeforeInit :=
  fun hi => absurd (h.symm.trans hi) (by decide)

theorem faultCoded_of_unfaulted {s : State} (hf : s.fault = false) (hc : s.fcode = fcodeNone) : s.faultCoded :=
  ⟨fun _ => hc, fun h => absurd (hf.symm.trans h) (by decide), fun h => absurd (hc.symm.trans h) (by decide)⟩

/-- V9 of 10_state.md R38, with nothing unread. -/
theorem unreadWritten_of_wr_eq_rd {s : State} (hr : s.rd < s.params.slots) (h : s.wr = s.rd) : s.unreadWritten :=
  unreadWritten_iff.2 fun x hx => absurd hx (not_holdsUnread_of_wr_eq_rd hr h x)

/-! ### Reset (10_state.md R39) -/

theorem resetWith_registers (p : Params) :
    (State.resetWith p).acc = 0 ∧ (State.resetWith p).idx = 0 ∧ (State.resetWith p).elapsed = 0 ∧
    (State.resetWith p).run = false ∧ (State.resetWith p).edgeEn = false ∧ (State.resetWith p).edgePend = false ∧
    (State.resetWith p).inited = false ∧ (State.resetWith p).fault = false ∧ (State.resetWith p).fcode = 0 ∧
    (State.resetWith p).wr = 0 ∧ (State.resetWith p).rd = 0 ∧ ∀ a, Memory.read? (State.resetWith p).buf a = none :=
  ⟨rfl, rfl, rfl, rfl, rfl, rfl, rfl, rfl, rfl, rfl, rfl, fun _ => rfl⟩

theorem resetWith_inv {p : Params} (h : p.legal = true) : (State.resetWith p).Inv := by
  have hs : 0 < p.slots := by have := p.legal_iff.1 h; omega
  exact
    { legal := h
      elapsedBounded := Nat.zero_le _
      idxBounded := Nat.zero_le _
      stoppedIsIdle := by simp [State.resetWith]
      wrInRange := hs
      rdInRange := hs
      accBounded := accBounded_of_acc_zero rfl
      inertBeforeInit := by simp [State.resetWith]
      faultInited := by simp [State.resetWith]
      pendDisabled := by simp [State.resetWith]
      unreadWritten := unreadWritten_of_wr_eq_rd hs rfl
      bufCanonical := List.Pairwise.nil
      bufInRange := by simp [State.resetWith]
      faultCoded := faultCoded_of_unfaulted rfl rfl
      respNull := fun _ => rfl }

/-! ### Arithmetic of a serviced edge -/

/-- Below the largest index the next index does not wrap and stays in bounds (40_decoder.md R102, R106). -/
theorem idx_succ_toNat {s : State} (hs : s.idx ≤ s.params.idxMax) (hx : s.idx ≠ s.params.idxMax) :
    (s.idx + 1#8).toNat = s.idx.toNat + 1 ∧ s.idx + 1#8 ≤ s.params.idxMax := by
  have hlt : s.idx < s.params.idxMax := BitVec.lt_of_le_ne hs hx
  bv_omega

/-- V5 of 10_state.md R38 over a valid pulse: before the data pulses the accumulator stays 0, each data pulse doubles its
bound. -/
theorem accAfter_bounded {s : State} {i e : Byte} (hs : s.accBounded) (hi : i.toNat = s.idx.toNat + 1) :
    (i.toNat ≤ 2 → accAfter i e s.acc = 0) ∧
    (3 ≤ i.toNat → i.toNat ≤ 34 → (accAfter i e s.acc).toNat < 2 ^ (i.toNat - 2)) := by
  obtain ⟨hlow, hdata⟩ := hs
  unfold accAfter
  constructor
  · intro h2
    rw [if_neg (by rw [isData_iff]; omega)]
    exact hlow (by omega)
  · intro h3 h34
    rw [if_pos ((isData_iff i).2 ⟨h3, h34⟩), shiftIn_toNat]
    have hacc : s.acc.toNat < 2 ^ (i.toNat - 3) := by
      by_cases h : i.toNat = 3
      · rw [hlow (by omega), h]; simp
      · rw [show i.toNat - 3 = s.idx.toNat - 2 by omega]
        exact hdata (by omega) (by omega)
    have hpow : 2 ^ (i.toNat - 2) = 2 * 2 ^ (i.toNat - 3) := by
      rw [← pow_succ']; congr 1; omega
    have hbit := (dataBit e).toNat_le
    calc (2 * s.acc.toNat + (dataBit e).toNat) % 2 ^ 32
        ≤ 2 * s.acc.toNat + (dataBit e).toNat := Nat.mod_le _ _
      _ < 2 ^ (i.toNat - 2) := by omega

/-! ### The register updates keep the invariants -/

section
variable {s : State} (hs : s.Inv)
include hs

theorem State.Inv.respond {r : Response} (hr : r.valid = false → r.data = 0) : (s.respond r).Inv :=
  { hs with respNull := hr }

theorem State.Inv.setRequests (ws : List RequestWord) : (s.setRequests ws).Inv := { hs with }

theorem State.Inv.slots_pos : 0 < s.params.slots := by
  have := hs.wrInRange
  omega

theorem State.Inv.arm (hf : s.fault = false) : s.arm.Inv :=
  { hs with
    elapsedBounded := Nat.zero_le _
    idxBounded := Nat.zero_le _
    stoppedIsIdle := stoppedIsIdle_of_run rfl
    wrInRange := hs.slots_pos
    rdInRange := hs.slots_pos
    accBounded := accBounded_of_acc_zero rfl
    inertBeforeInit := inertBeforeInit_of_inited rfl
    faultInited := fun _ => rfl
    pendDisabled := fun h => absurd h (by simp)
    unreadWritten := unreadWritten_of_wr_eq_rd (s := s.arm) hs.slots_pos rfl
    faultCoded := faultCoded_of_unfaulted hf (hs.faultCoded.1 hf) }

theorem State.Inv.doubleInit (hi : s.inited = true) : (s.raiseFault fcodeDoubleInit).Inv :=
  { hs with
    inertBeforeInit := inertBeforeInit_of_inited hi
    faultInited := fun _ => hi
    faultCoded := ⟨fun h => absurd h (by simp), fun _ => .inl rfl,
      fun h => absurd (show fcodeDoubleInit = fcodeIdxOverflow from h) (by decide)⟩ }

theorem State.Inv.overflow (hi : s.inited = true) (hx : s.idx = s.params.idxMax) :
    (s.raiseFault fcodeIdxOverflow).Inv :=
  { hs with
    inertBeforeInit := inertBeforeInit_of_inited hi
    faultInited := fun _ => hi
    faultCoded := ⟨fun h => absurd h (by simp), fun _ => .inr rfl, fun _ => hx⟩ }

theorem State.Inv.latchEdge (hi : s.inited = true) (he : s.edgeEn = false) : s.latchEdge.Inv :=
  { hs with
    inertBeforeInit := inertBeforeInit_of_inited hi
    pendDisabled := fun _ => he }

theorem State.Inv.disable (hi : s.inited = true) : (s.setEdgeEn false).Inv :=
  { hs with
    inertBeforeInit := inertBeforeInit_of_inited hi
    pendDisabled := fun _ => rfl }

theorem State.Inv.enable (hi : s.inited = true) (hp : s.edgePend = false) : (s.setEdgeEn true).Inv :=
  { hs with
    inertBeforeInit := inertBeforeInit_of_inited hi
    pendDisabled := fun h => absurd (hp.symm.trans h) (by decide) }

/-- EDGE_ENA's two writes before it services a latched edge (43_control.md R162). -/
theorem State.Inv.release (hi : s.inited = true) : (s.setEdgeEn true).clearPend.Inv :=
  { hs with
    inertBeforeInit := inertBeforeInit_of_inited hi
    pendDisabled := fun h => absurd h (by simp) }

theorem State.Inv.servedState {i : Instr} (hi : s.inited = true) : (servedState i s).Inv := by
  unfold Machine.servedState
  split
  · exact hs.release hi
  · exact hs

theorem State.Inv.resync_restart (hi : s.inited = true) (hf : s.fault = false) : s.resync.restart.Inv :=
  { hs with
    elapsedBounded := Nat.zero_le _
    idxBounded := by
      have := (Params.legal_iff _).1 hs.legal
      show 1#8 ≤ s.params.idxMax
      bv_omega
    stoppedIsIdle := stoppedIsIdle_of_run rfl
    accBounded := accBounded_of_acc_zero rfl
    inertBeforeInit := inertBeforeInit_of_inited hi
    faultCoded := faultCoded_of_unfaulted hf (hs.faultCoded.1 hf) }

theorem State.Inv.advance_restart (hi : s.inited = true) (hf : s.fault = false) (hx : s.idx ≠ s.params.idxMax) :
    (s.advance (s.idx + 1#8) (accAfter (s.idx + 1#8) s.elapsed s.acc)).restart.Inv := by
  obtain ⟨hsucc, hle⟩ := idx_succ_toNat hs.idxBounded hx
  exact { hs with
    elapsedBounded := Nat.zero_le _
    idxBounded := hle
    stoppedIsIdle := stoppedIsIdle_of_run rfl
    accBounded := accAfter_bounded hs.accBounded hsucc
    inertBeforeInit := inertBeforeInit_of_inited hi
    faultCoded := faultCoded_of_unfaulted hf (hs.faultCoded.1 hf) }

/-- V6 of 10_state.md R38 frees the ring's registers on the ring's own port, and everything after INIT. -/
theorem State.Inv.inertBeforeInit_of_ring {t : State} (h : s.inited = true ∨ s.port = .ring)
    (ht : t = { s with buf := t.buf, wr := t.wr, rd := t.rd }) : t.inertBeforeInit := by
  rw [ht]
  intro hi
  obtain ⟨ha, hx, he, hr, hen, hp, hf, -⟩ := hs.inertBeforeInit hi
  rcases h with h | h
  · exact absurd (h.symm.trans hi) (by decide)
  · exact ⟨ha, hx, he, hr, hen, hp, hf, fun hext => absurd (h.symm.trans hext) (by decide)⟩

theorem State.Inv.stored (b : Byte) (hb : s.inited = true ∨ s.port = .ring) : (stored s b).Inv :=
  { hs with
    wrInRange := nextSlot_lt _ hs.slots_pos
    rdInRange := stored_rd_lt hs.rdInRange b
    inertBeforeInit := hs.inertBeforeInit_of_ring hb rfl
    unreadWritten := by
      refine unreadWritten_iff.2 fun x hx => ?_
      rw [stored_buf, Memory.read?_write]
      split
      · rfl
      · next hne =>
        have hx := (holdsUnread_of_stored hs.wrInRange hs.rdInRange hx).resolve_left (Ne.symm hne)
        exact unreadWritten_iff.1 hs.unreadWritten x hx
    bufCanonical := Memory.wf_write _ _ _ hs.bufCanonical
    bufInRange := Memory.write_in_range _ _ _ _ hs.wrInRange hs.bufInRange }

theorem State.Inv.countTick (hi : s.inited = true) (hr : s.run = true) (he : s.elapsed < s.params.tTimeout) :
    s.countTick.Inv :=
  { hs with
    elapsedBounded := by
      show s.elapsed + 1#8 ≤ s.params.tTimeout
      bv_omega
    stoppedIsIdle := stoppedIsIdle_of_run hr
    inertBeforeInit := inertBeforeInit_of_inited hi }

theorem State.Inv.timeout (hi : s.inited = true) (hf : s.fault = false) : s.timeout.Inv :=
  { hs with
    elapsedBounded := Nat.zero_le _
    idxBounded := Nat.zero_le _
    stoppedIsIdle := fun _ _ => ⟨rfl, rfl, rfl⟩
    accBounded := accBounded_of_acc_zero rfl
    inertBeforeInit := inertBeforeInit_of_inited hi
    faultCoded := faultCoded_of_unfaulted hf (hs.faultCoded.1 hf) }

/-- A command is unread only after INIT or on the ring's own port (V6 of 10_state.md R38). -/
theorem State.Inv.inited_or_ring_of_unread (he : s.wr ≠ s.rd) : s.inited = true ∨ s.port = .ring := by
  cases hi : s.inited with
  | true => exact .inl rfl
  | false =>
    cases hp : s.port with
    | ring => exact .inr rfl
    | external =>
      obtain ⟨-, -, -, -, -, -, -, hring⟩ := hs.inertBeforeInit hi
      obtain ⟨hw, hr, -⟩ := hring hp
      exact absurd (hw.trans hr.symm) he

theorem State.Inv.advanceRd (he : s.wr ≠ s.rd) : s.advanceRd.Inv :=
  { hs with
    rdInRange := nextSlot_lt _ hs.slots_pos
    inertBeforeInit := hs.inertBeforeInit_of_ring (hs.inited_or_ring_of_unread he) rfl
    unreadWritten := unreadWritten_iff.2 fun x hx =>
      unreadWritten_iff.1 hs.unreadWritten x (holdsUnread_of_advanceRd hs.wrInRange hs.rdInRange he hx) }

end

/-! ### Requests and steps keep the invariants -/

/-- A completion pulse is an advance and a PUT of the command byte (40_decoder.md R108). -/
theorem completed_eq_stored (s : State) :
    completed s =
      stored (s.advance (s.idx + 1#8) (accAfter (s.idx + 1#8) s.elapsed s.acc)).restart
        (commandByte (accAfter (s.idx + 1#8) s.elapsed s.acc)) := rfl

/-- Every change keeps the invariants. -/
theorem Change.keeps_inv {i : Instr} {s u : State} (h : Change i s u) (hs : s.Inv) : u.Inv := by
  obtain ⟨hp, hx, he, ha, -⟩ := servedState_same i s
  obtain ⟨-, -, hi, hf, -⟩ := servedState_frame i s
  cases h with
  | nothing _ => exact hs
  | arm _ hf _ => exact hs.arm hf
  | doubleInit _ _ hi => exact hs.doubleInit hi
  | latch _ _ hi he => exact hs.latchEdge hi he
  | disable _ _ hi => exact hs.disable hi
  | enable _ _ hi hp => exact hs.enable hi hp
  | count _ _ hi hr he => exact hs.countTick hi hr he
  | timeout _ hf hi _ _ => exact hs.timeout hi hf
  | take _ _ he _ => exact hs.advanceRd he
  | put b _ _ hp _ => exact hs.stored b (.inr hp)
  | overflow h hm => exact (hs.servedState h.inited).overflow (hi.trans h.inited) (by rw [hx, hp, hm])
  | resync h _ _ => exact (hs.servedState h.inited).resync_restart (hi.trans h.inited) (hf.trans h.unfaulted)
  | advance h hm _ _ =>
    rw [← hx, ← hp] at hm
    rw [← ha, ← hx, ← he]
    exact (hs.servedState h.inited).advance_restart (hi.trans h.inited) (hf.trans h.unfaulted) hm
  | complete h hm _ _ _ =>
    rw [← hx, ← hp] at hm
    rw [completed_eq_stored]
    exact ((hs.servedState h.inited).advance_restart (hi.trans h.inited) (hf.trans h.unfaulted) hm).stored _
      (.inl (hi.trans h.inited))

/-- Every response has data 0x00 unless it is valid (30_encoding.md R73). -/
theorem answer_null (i : Instr) (s : State) : (answer i s).valid = false → (answer i s).data = 0 := by
  cases i with
  | get d => dsimp only [answer]; split <;> simp [nullResponse, answerByte]
  | put b => dsimp only [answer]; split <;> simp [nullResponse, reservedResponse]
  | _ => simp [answer, answerTruth, answerByte, nullResponse, reservedResponse]

/-- V1 to V9 of 10_state.md R38 through one request. -/
theorem exec_keeps_inv {i : Instr} {s t : State} (hs : s.Inv) (h : exec i s = .next t) : t.Inv := by
  obtain ⟨u, hu, rfl⟩ := exec_next_iff.1 h
  exact (hu.keeps_inv hs).respond (answer_null i s)

end Sys2Proof.Machine
end

section
/-! Slots that hold no unread command are unobservable (10_state.md R29). -/

namespace Sys2Proof.Machine

/-! ### Agreement through each update that reaches the ring, and each made at the state of service -/

theorem agreeButStaleSlots.eq_setBuf {s t : State} (h : agreeButStaleSlots s t) : t = s.setBuf t.buf := h.1

theorem agreeButStaleSlots.servedState {s t : State} (h : agreeButStaleSlots s t) (i : Instr) :
    agreeButStaleSlots (servedState i s) (servedState i t) := by
  obtain ⟨ht, hm⟩ := h
  unfold Machine.servedState
  split
  · exact ⟨by rw [ht]; rfl, hm⟩
  · exact ⟨ht, hm⟩

/-- Both cursors' slots are the same in both states, so a PUT stores the same byte into the same slot. -/
theorem agreeButStaleSlots.stored {s t : State} (h : agreeButStaleSlots s t) (hw : s.wr < s.params.slots)
    (hr : s.rd < s.params.slots) (b : Byte) : agreeButStaleSlots (stored s b) (stored t b) := by
  obtain ⟨ht, hm⟩ := agreeButStaleSlots_iff.1 h
  have hwr : t.wr = s.wr := by rw [ht]; rfl
  refine agreeButStaleSlots_iff.2 ⟨by rw [ht]; rfl, fun x hx => ?_⟩
  rw [stored_buf, stored_buf, Memory.read?_write, Memory.read?_write, hwr]
  split
  · rfl
  · next hne => exact hm x ((holdsUnread_of_stored hw hr hx).resolve_left (Ne.symm hne))

theorem agreeButStaleSlots.advanceRd {s t : State} (h : agreeButStaleSlots s t) (hw : s.wr < s.params.slots)
    (hr : s.rd < s.params.slots) (he : s.wr ≠ s.rd) : agreeButStaleSlots s.advanceRd t.advanceRd := by
  obtain ⟨ht, hm⟩ := agreeButStaleSlots_iff.1 h
  refine agreeButStaleSlots_iff.2 ⟨by rw [ht]; rfl, fun x hx => ?_⟩
  exact hm x (holdsUnread_of_advanceRd hw hr he hx)

theorem agreeButStaleSlots.advance_restart {s t : State} (h : agreeButStaleSlots s t) (i : Byte) (a : Acc) :
    agreeButStaleSlots (s.advance i a).restart (t.advance i a).restart := by
  obtain ⟨ht, hm⟩ := h
  exact ⟨by rw [ht]; rfl, hm⟩

/-- A completion pulse pushes a byte of the accumulator, which both states share. -/
theorem agreeButStaleSlots.completed {s t : State} (h : agreeButStaleSlots s t) (hw : s.wr < s.params.slots)
    (hr : s.rd < s.params.slots) : agreeButStaleSlots (completed s) (completed t) := by
  obtain ⟨m, rfl⟩ : ∃ m, t = s.setBuf m := ⟨_, h.eq_setBuf⟩
  exact (h.advance_restart (s.idx + 1#8) (accAfter (s.idx + 1#8) s.elapsed s.acc)).stored hw hr _

/-! ### Agreement through one request -/

/-- No condition of a change reads ring storage, so both states take the same change, and agree after it. -/
theorem Change.keeps_agreement {i : Instr} {s t u : State} (hw : s.wr < s.params.slots) (hr : s.rd < s.params.slots)
    (hc : Change i s u) (h : agreeButStaleSlots s t) : ∃ v, Change i t v ∧ agreeButStaleSlots u v := by
  obtain ⟨m, rfl⟩ : ∃ m, t = s.setBuf m := ⟨_, h.eq_setBuf⟩
  obtain ⟨hp, -, -, -, -, hsw, hsr⟩ := servedState_same i s
  have hserved := h.servedState i
  have ⟨hsv, hsm⟩ := hserved
  have ⟨_, hm⟩ := h
  cases hc with
  | nothing hn => exact ⟨_, .nothing hn, h⟩
  | arm ho hf hi =>
    refine ⟨_, .arm ho hf hi, agreeButStaleSlots_iff.2 ⟨rfl, fun x hx => absurd hx ?_⟩⟩
    exact not_holdsUnread_of_wr_eq_rd (s := s.arm) (by simp; omega) rfl x
  | doubleInit ho hf hi => exact ⟨_, .doubleInit ho hf hi, rfl, hm⟩
  | latch ho hf hi he => exact ⟨_, .latch ho hf hi he, rfl, hm⟩
  | disable ho hf hi => exact ⟨_, .disable ho hf hi, rfl, hm⟩
  | enable ho hf hi hp => exact ⟨_, .enable ho hf hi hp, rfl, hm⟩
  | count ho hf hi hr he => exact ⟨_, .count ho hf hi hr he, rfl, hm⟩
  | timeout ho hf hi hr he => exact ⟨_, .timeout ho hf hi hr he, rfl, hm⟩
  | overflow hv hx => exact ⟨_, .overflow hv hx, by rw [hsv]; rfl, hsm⟩
  | resync hv hx hwin => exact ⟨_, .resync hv hx hwin, by rw [hsv]; rfl, hsm⟩
  | advance hv hx hwin hcp => exact ⟨_, .advance hv hx hwin hcp, by rw [hsv]; rfl, hsm⟩
  | complete hv hx hwin hcp hwr =>
    exact ⟨_, .complete hv hx hwin hcp hwr, hserved.completed (by rwa [hsw, hp]) (by rwa [hsr, hp])⟩
  | take ho hf he hrd => exact ⟨_, .take ho hf he hrd, h.advanceRd hw hr he⟩
  | put b ho hf hp hwr => exact ⟨_, .put b ho hf hp hwr, h.stored hw hr b⟩

/-- A request answers from unread slots alone: GET reads the slot of the oldest unread command. -/
theorem answer_eq_of_agree {s t : State} (hw : s.wr < s.params.slots) (hr : s.rd < s.params.slots)
    (h : agreeButStaleSlots s t) (i : Instr) : answer i t = answer i s := by
  obtain ⟨ht, hm⟩ := agreeButStaleSlots_iff.1 h
  rw [ht]
  cases i with
  | get d =>
    by_cases he : s.wr = s.rd
    · simp [answer, he]
    · have hread : Memory.read t.buf s.rd = Memory.read s.buf s.rd := by
        rw [Memory.read, Memory.read, hm _ (holdsUnread_rd hw hr he)]
      simp [answer, isEmpty, he, hread]
  | _ => rfl

end Sys2Proof.Machine
end

section
/-! Ownership of the registers (10_state.md R35) and the fixed configuration (R36), as case analyses of `Change`. -/

namespace Sys2Proof.Machine

/-! ### Which requests may change which registers -/

/-- A serviced edge's code is in every list that holds EDGE's and EDGE_ENA's. -/
theorem serves.op_mem {i : Instr} {s : State} (h : serves i s) {l : List (BitVec 4)} (h2 : 0x2#4 ∈ l) (h8 : 0x8#4 ∈ l) :
    i.op ∈ l := by
  rcases h.op with ho | ho
  · rwa [ho]
  · rwa [ho]

theorem Change.decoder_kept_or_op {i : Instr} {s u : State} (h : Change i s u) :
    (u.acc = s.acc ∧ u.idx = s.idx ∧ u.elapsed = s.elapsed ∧ u.run = s.run) ∨ i.op ∈ [0x1#4, 0x2#4, 0x3#4, 0x8#4] := by
  cases h with
  | arm ho | count ho | timeout ho => exact .inr (by simp [ho])
  | overflow hv | resync hv | advance hv | complete hv => exact .inr (hv.op_mem (by simp) (by simp))
  | _ => exact .inl ⟨rfl, rfl, rfl, rfl⟩

theorem Change.producer_kept_or_op {i : Instr} {s u : State} (h : Change i s u) :
    (u.wr = s.wr ∧ u.buf = s.buf) ∨ i.op ∈ [0x1#4, 0x2#4, 0x8#4, 0x9#4] := by
  cases h with
  | arm ho => exact .inr (by simp [ho])
  | put b ho => exact .inr (by simp [ho, Instr.op])
  | overflow hv | resync hv | advance hv | complete hv => exact .inr (hv.op_mem (by simp) (by simp))
  | _ => exact .inl ⟨rfl, rfl⟩

/-- The read cursor is the Consumer's, but for INIT and an eviction from a full ring (10_state.md R31). -/
theorem Change.rd_kept_or_op {i : Instr} {s u : State} (h : Change i s u) :
    u.rd = s.rd ∨ i.op ∈ [0x1#4, 0x4#4] ∨ (isFull s = true ∧ i.op ∈ [0x2#4, 0x8#4, 0x9#4]) := by
  obtain ⟨hp, -, -, -, -, hsw, hsr⟩ := servedState_same i s
  cases h with
  | arm ho | take ho => exact .inr (.inl (by simp [ho]))
  | overflow _ | resync _ | advance _ => exact .inl hsr
  | complete hv =>
    by_cases hfull : isFull s = true
    · exact .inr (.inr ⟨hfull, hv.op_mem (by simp) (by simp)⟩)
    · have hfull' : ¬ isFull (servedState i s) = true := by rwa [isFull, hp, hsw, hsr]
      exact .inl ((if_neg hfull').trans hsr)
  | put b ho =>
    by_cases hfull : isFull s = true
    · exact .inr (.inr ⟨hfull, by simp [ho, Instr.op]⟩)
    · exact .inl (if_neg hfull)
  | _ => exact .inl rfl

/-- Only EDGE_ENA is served at another state than the one before it. -/
theorem servedState_of_ne {i : Instr} (h : i.op ≠ 0x8#4) (s : State) : servedState i s = s := if_neg h

/-- The enable is written by INIT, EDGE_DIS and EDGE_ENA alone: EDGE is served at its own state. -/
theorem Change.edgeEn_kept_or_op {i : Instr} {s u : State} (h : Change i s u) :
    u.edgeEn = s.edgeEn ∨ i.op ∈ [0x1#4, 0x7#4, 0x8#4] := by
  by_cases h8 : i.op = 0x8#4
  · exact .inr (by simp [h8])
  · have hserved : (servedState i s).edgeEn = s.edgeEn := by rw [servedState_of_ne h8]
    cases h with
    | arm ho | disable ho | enable ho => exact .inr (by simp [ho])
    | overflow _ | resync _ | advance _ | complete _ => exact .inl hserved
    | _ => exact .inl rfl

theorem Change.latch_and_fault_kept_or_op {i : Instr} {s u : State} (h : Change i s u) :
    (u.edgePend = s.edgePend ∧ u.fault = s.fault ∧ u.fcode = s.fcode) ∨ i.op ∈ [0x1#4, 0x2#4, 0x8#4] := by
  cases h with
  | arm ho | doubleInit ho | latch ho => exact .inr (by simp [ho])
  | overflow hv | resync hv | advance hv | complete hv => exact .inr (hv.op_mem (by simp) (by simp))
  | _ => exact .inl ⟨rfl, rfl, rfl⟩

theorem Change.inited_kept_or_op {i : Instr} {s u : State} (h : Change i s u) : u.inited = s.inited ∨ i.op = 0x1#4 := by
  obtain ⟨-, -, hi, -⟩ := servedState_frame i s
  cases h with
  | arm ho => exact .inr ho
  | overflow _ | resync _ | advance _ | complete _ => exact .inl hi
  | _ => exact .inl rfl

/-! ### The ring operations and the decoder's registers -/

/-- The state with other values in the decoder's registers. -/
def State.setDecoder (s : State) (a : Acc) (x e : Byte) (r : Bool) : State :=
  { s with acc := a, idx := x, elapsed := e, run := r }

/-- A ring operation takes the same change, whatever the decoder's registers hold. -/
theorem Change.setDecoder {i : Instr} {s u : State} (h : Change i s u) (ho : i.op ∈ [0x4#4, 0x5#4, 0x6#4, 0x9#4])
    (a : Acc) (x e : Byte) (r : Bool) : Change i (s.setDecoder a x e r) (u.setDecoder a x e r) := by
  cases h with
  | nothing hn =>
    refine .nothing (hn.imp_right fun ⟨h1, h2, _, h4, h5⟩ => ⟨h1, h2, fun h3 => ?_, h4, h5⟩)
    rw [h3] at ho
    exact absurd ho (by decide)
  | take hg hf he hr => exact .take hg hf he hr
  | put b hb hf hp hw => exact .put b hb hf hp hw
  | arm h1 | doubleInit h1 | latch h1 | disable h1 | enable h1 | count h1 | timeout h1 =>
    rw [h1] at ho
    exact absurd ho (by decide)
  | overflow hv | resync hv | advance hv | complete hv =>
    rcases hv.op with h1 | h1 <;> rw [h1] at ho <;> exact absurd ho (by decide)

/-- No answer depends on the decoder's registers. -/
theorem answer_setDecoder (i : Instr) (s : State) (a : Acc) (x e : Byte) (r : Bool) :
    answer i (s.setDecoder a x e r) = answer i s := by
  cases i <;> rfl

theorem exec_setDecoder {i : Instr} {s t : State} (h : exec i s = .next t) (ho : i.op ∈ [0x4#4, 0x5#4, 0x6#4, 0x9#4])
    (a : Acc) (x e : Byte) (r : Bool) : exec i (s.setDecoder a x e r) = .next (t.setDecoder a x e r) := by
  obtain ⟨u, hu, rfl⟩ := exec_next_iff.1 h
  exact exec_next_iff.2 ⟨_, hu.setDecoder ho a x e r, by rw [answer_setDecoder]; rfl⟩

/-! ### The configuration -/

theorem Change.config_kept {i : Instr} {s u : State} (h : Change i s u) :
    u.params = s.params ∧ u.port = s.port ∧ u.requests = s.requests := by
  obtain ⟨hp, -⟩ := servedState_same i s
  obtain ⟨hq, hw, -⟩ := servedState_frame i s
  cases h with
  | overflow _ | resync _ | advance _ | complete _ => exact ⟨hp, hq, hw⟩
  | _ => exact ⟨rfl, rfl, rfl⟩

end Sys2Proof.Machine
end

section
/-! ### The obligations -/

namespace Sys2Proof.Machine

/-- Settles O3: taking the request keeps the invariants, and so does whatever the request changes. -/
theorem stepKeepsTheInvariants : Obligations.StepKeepsTheInvariants := by
  intro s s' hs h
  obtain ⟨-, he⟩ := step_next h
  rw [takeRequest_snd] at he
  exact exec_keeps_inv (hs.setRequests _) he

/-- Settles O44: both states take the same change and answer alike. -/
theorem staleSlotsAreUnobservable : Obligations.StaleSlotsAreUnobservable := by
  intro i s t s' _ hw hr hst h
  obtain ⟨u, hu, rfl⟩ := exec_next_iff.1 h
  obtain ⟨v, hv, ⟨hvu, hm⟩⟩ := hu.keeps_agreement hw hr hst
  refine ⟨_, exec_of_change hv, ?_⟩
  rw [answer_eq_of_agree hw hr hst, hvu]
  exact ⟨⟨rfl, hm⟩, rfl⟩

/-- Settles O40: the count is a number modulo `N`, and each predicate one value of it. -/
theorem countBoundsAndPredicates : Obligations.CountBoundsAndPredicates := by
  intro s hn hw hr
  have hlt := unreadCount_lt hw
  refine ⟨by omega, length_unread s, isEmpty_iff_unreadCount hw hr, isFull_iff_unreadCount hw hr, ?_⟩
  rw [isEmpty_iff_unreadCount hw hr, isFull_iff_unreadCount hw hr]
  omega

/-- Settles O52: each register's owners by the case analysis of a change. -/
theorem registersHaveOwners : Obligations.RegistersHaveOwners := by
  intro i s t h
  obtain ⟨u, hu, rfl⟩ := exec_next_iff.1 h
  exact ⟨hu.decoder_kept_or_op.resolve_right, hu.producer_kept_or_op.resolve_right, hu.rd_kept_or_op.resolve_left,
    hu.edgeEn_kept_or_op.resolve_right, hu.latch_and_fault_kept_or_op.resolve_right, hu.inited_kept_or_op.resolve_right,
    exec_setDecoder h⟩

/-- Settles O53: no change touches the configuration. -/
theorem configurationIsFixed : Obligations.ConfigurationIsFixed := by
  intro i s t h
  obtain ⟨u, r, hu, rfl⟩ := exec_change h
  exact hu.config_kept

/-- Settles O1: reset is `resetWith` for one choice of the parameters. -/
theorem resetPutsEveryRegisterAtItsResetValue : Obligations.ResetPutsEveryRegisterAtItsResetValue := by
  rintro s (rfl | ⟨p, rfl⟩)
  · exact resetWith_registers Params.vectors
  · exact resetWith_registers p

/-- Settles O2: by the invariants at `resetWith`, the vectors' parameters being legal. -/
theorem resetMeetsTheInvariants : Obligations.ResetMeetsTheInvariants :=
  ⟨resetWith_inv (by decide), fun _ hp => ⟨rfl, resetWith_inv hp⟩⟩

end Sys2Proof.Machine
end

section
/-! Memory (20_memory.md): ring accesses outside the slots (R50), completion (R62), and the window in which EDGE_DIS holds
off the producer (R63). -/

namespace Sys2Proof.Machine

/-! ### Ring accesses outside the slots -/

theorem memRead_outside {s : State} {a : Nat} (k : Byte → Result) (h : s.params.slots ≤ a) :
    memRead s a k = .fault .noSuchSlot := if_neg (Nat.not_lt.2 h)

theorem ringPut_outside {s : State} (b : Byte) (h : s.params.slots ≤ s.wr) : ringPut s b = .fault .noSuchSlot := by
  rw [ringPut_stored, if_neg (Nat.not_lt.2 h)]

/-- A GET that reads at all reads at the read cursor. -/
theorem exec_get_outside (d : Byte) {s : State} (hf : s.fault = false) (he : s.wr ≠ s.rd)
    (hr : s.params.slots ≤ s.rd) : exec (.get d) s = .fault .noSuchSlot := by
  simp [exec, execGet, isEmpty, hf, he, memRead_outside _ hr]

/-- PUT on the ring's own port stores at the write cursor. -/
theorem exec_put_outside (d : Byte) {s : State} (hp : s.port = .ring) (hf : s.fault = false)
    (hw : s.params.slots ≤ s.wr) : exec (.put d) s = .fault .noSuchSlot := by
  simp [exec, execPut, hp, hf, ringPut_outside d hw]

/-- Faulted, the request is inert; on the ring's own port PUT answers the null response (log entry 7). -/
theorem exec_put_faulted (d : Byte) {s : State} (hp : s.port = .ring) (hf : s.fault = true) :
    exec (.put d) s = .next (s.respond nullResponse) := by
  rw [exec_inert (.inl hf)]
  simp [answer, hp]

/-! ### Runs of the machine -/

theorem run_zero_next {M : Host.Core} {s t : M.State} : M.run 0 s = .next t ↔ s = t :=
  ⟨Host.Outcome.next.inj, congrArg _⟩

/-- A run of one step more is a first step and the rest of the run. -/
theorem run_succ_next {M : Host.Core} {k : Nat} {s t : M.State} :
    M.run (k + 1) s = .next t ↔ ∃ u, M.step s = .next u ∧ M.run k u = .next t := by
  rw [Host.Core.run]
  cases M.step s <;> simp

/-- The request performed comes from the trace, or is the idle slot's. -/
theorem takeRequest_fst_mem (s : State) : (takeRequest s).1 ∈ s.requests ∨ (takeRequest s).1 = 0x000#12 := by
  cases h : s.requests with
  | nil => exact .inr (by rw [takeRequest_nil h])
  | cons w ws => exact .inl (by rw [takeRequest_cons h]; exact List.mem_cons_self)

/-! ### The disable window -/

/-- Between an EDGE_DIS and the next EDGE_ENA on CORE's external port (20_memory.md R63): edge detection is disabled in an
initialised block, and the trace to come holds no EDGE_ENA. -/
structure State.windowOpen (s : State) : Prop where
  inited    : s.inited = true
  disabled  : s.edgeEn = false
  external  : s.port = .external
  noEnable  : ∀ w ∈ s.requests, opField w ≠ 0x8#4

/-- While edge detection is disabled, only EDGE_ENA can service an edge: the one it releases. -/
theorem not_serves_of_disabled {i : Instr} {s : State} (he : s.edgeEn = false) (ho : i.op ≠ 0x8#4) : ¬ serves i s := by
  rintro ⟨-, -, ⟨-, hen⟩ | ⟨h8, -⟩⟩
  · exact absurd (he.symm.trans hen) (by decide)
  · exact ho h8

theorem State.windowOpen.op_ne_edgeEna {s : State} (h : s.windowOpen) : (decode (takeRequest s).1).op ≠ 0x8#4 := by
  rw [(decode_fields _).1]
  rcases takeRequest_fst_mem s with hw | hw
  · exact h.noEnable _ hw
  · rw [hw]; decide

theorem State.windowOpen.takeRequest {s : State} (h : s.windowOpen) : (takeRequest s).2.windowOpen := by
  rw [takeRequest_snd]
  exact { h with noEnable := fun w hw => h.noEnable w (List.mem_of_mem_tail hw) }

/-- In the window a request other than EDGE_ENA neither reaches the ring's producer side nor ends the window: no edge is
serviced, INIT is a second one, and code 0x9 is reserved on the external port. -/
theorem Change.kept_in_window {i : Instr} {s u : State} (h : Change i s u) (hs : s.windowOpen) (ho : i.op ≠ 0x8#4) :
    u.windowOpen ∧ u.buf = s.buf ∧ u.wr = s.wr := by
  cases h with
  | arm _ _ hi => exact absurd (hs.inited.symm.trans hi) (by decide)
  | enable h8 => exact absurd h8 ho
  | put _ _ _ hp => exact absurd (hs.external.symm.trans hp) (by decide)
  | overflow hv | resync hv | advance hv | complete hv => exact absurd hv (not_serves_of_disabled hs.disabled ho)
  | disable => exact ⟨{ hs with disabled := rfl }, rfl, rfl⟩
  | _ => exact ⟨{ hs with }, rfl, rfl⟩

/-- One step keeps the window open and the producer side of the ring as it was. -/
theorem step_kept_in_window {s t : State} (hs : s.windowOpen) (h : step s = .next t) :
    t.windowOpen ∧ t.buf = s.buf ∧ t.wr = s.wr := by
  obtain ⟨-, he⟩ := step_next h
  obtain ⟨u, r, hu, rfl⟩ := exec_change he
  obtain ⟨hw, hb, hc⟩ := hu.kept_in_window hs.takeRequest hs.op_ne_edgeEna
  rw [takeRequest_snd] at hb hc
  exact ⟨{ hw with }, hb, hc⟩

/-- So does a run of any length. -/
theorem run_kept_in_window {k : Nat} {s t : State} (hs : s.windowOpen)
    (h : Host.Core.run Sys2Proof.core k s = .next t) : t.windowOpen ∧ t.buf = s.buf ∧ t.wr = s.wr := by
  induction k generalizing s with
  | zero =>
    obtain rfl := run_zero_next.1 h
    exact ⟨hs, rfl, rfl⟩
  | succ k ih =>
    obtain ⟨u, hu, hk⟩ := run_succ_next.1 h
    obtain ⟨hw, hb, hc⟩ := step_kept_in_window hs hu
    obtain ⟨hw', hb', hc'⟩ := ih hw hk
    exact ⟨hw', hb'.trans hb, hc'.trans hc⟩

/-! ### The obligations -/

/-- Settles O54: the open window is an invariant of the run, and every step inside it leaves the producer side alone. -/
theorem disableWindowHoldsOffTheProducer : Obligations.DisableWindowHoldsOffTheProducer := by
  intro k s t hi he hp hn h
  obtain ⟨hw, hb, hc⟩ := run_kept_in_window ⟨hi, he, hp, hn⟩ h
  exact ⟨hb, hc, hw.disabled⟩

/-- Settles O11, request by request. -/
theorem everyRequestCompletes : Obligations.EveryRequestCompletes := fun i _ hw hr => exec_completes i hw hr

/-- Settles O38: GET and PUT at a cursor outside the slots, and the frozen PUT. -/
theorem ringAccessOutsideItsSlotsStops : Obligations.RingAccessOutsideItsSlotsStops :=
  fun d _ => ⟨exec_get_outside d, exec_put_outside d, exec_put_faulted d⟩

end Sys2Proof.Machine
end

section
/-! The encoding (30_encoding.md R70, R71): decoder and encoder agree, the masked word, and the ignored data field. -/

namespace Sys2Proof

/-! ### Words and their fields -/

@[simp] theorem opField_append (o : BitVec 4) (d : Byte) : opField (o ++ d : RequestWord) = o :=
  (Laws.OpcodeRow.fields_of_append o d).1

@[simp] theorem dataField_append (o : BitVec 4) (d : Byte) : dataField (o ++ d : RequestWord) = d :=
  (Laws.OpcodeRow.fields_of_append o d).2

/-- Decoding loses nothing that encoding wrote. -/
theorem decode_encode (i : Instr) : decode (encode i) = i := by
  obtain ⟨ho, hd⟩ := decode_fields (encode i)
  rw [encode_eq, opField_append] at ho
  rw [encode_eq, dataField_append] at hd
  rw [encode_eq]
  exact Instr.ext_fields ho hd

/-- Encoding loses nothing that decoding read. -/
theorem encode_decode (w : RequestWord) : encode (decode w) = w := by
  obtain ⟨ho, hd⟩ := decode_fields w
  rw [encode_eq, ho, hd, ← word_eq_append]

/-- The mask 0xF00 keeps the operation code and clears the data field. -/
theorem word_and_opMask (w : RequestWord) : w &&& 0xF00#12 = opField w ++ 0x00#8 := by
  conv_lhs => rw [word_eq_append w]
  calc (opField w ++ dataField w) &&& (BitVec.allOnes 4 ++ 0x00#8)
      = (opField w &&& BitVec.allOnes 4) ++ (dataField w &&& 0x00#8) := BitVec.and_append
    _ = opField w ++ 0x00#8 := by rw [BitVec.and_allOnes, BitVec.and_zero]

/-- The mask 0x0FF keeps the data field and clears the operation code. -/
theorem word_and_dataMask (w : RequestWord) : w &&& 0x0FF#12 = 0x0#4 ++ dataField w := by
  conv_lhs => rw [word_eq_append w]
  calc (opField w ++ dataField w) &&& (0x0#4 ++ BitVec.allOnes 8)
      = (opField w &&& 0x0#4) ++ (dataField w &&& BitVec.allOnes 8) := BitVec.and_append
    _ = 0x0#4 ++ dataField w := by rw [BitVec.and_allOnes, BitVec.and_zero]

/-- Equal words under the mask are equal operation codes. -/
theorem opMask_inj {w v : RequestWord} : w &&& 0xF00#12 = v &&& 0xF00#12 ↔ opField w = opField v := by
  rw [word_and_opMask, word_and_opMask]
  exact ⟨fun h => by simpa using congrArg opField h, fun h => by rw [h]⟩

/-! ### The data field -/

/-- The same operation with another data byte. -/
def Instr.setData (d : Byte) : Instr → Instr
  | .nop _ => .nop d
  | .init _ => .init d
  | .edge _ => .edge d
  | .tick _ => .tick d
  | .get _ => .get d
  | .empty _ => .empty d
  | .full _ => .full d
  | .edgeDis _ => .edgeDis d
  | .edgeEna _ => .edgeEna d
  | .put _ => .put d
  | .reservedA _ => .reservedA d
  | .reservedB _ => .reservedB d
  | .reservedC _ => .reservedC d
  | .reservedD _ => .reservedD d
  | .reservedE _ => .reservedE d
  | .reservedF _ => .reservedF d

@[simp] theorem Instr.setData_op (i : Instr) (d : Byte) : (i.setData d).op = i.op := by cases i <;> rfl

@[simp] theorem Instr.setData_data (i : Instr) (d : Byte) : (i.setData d).data = d := by cases i <;> rfl

/-- Requests with one code differ at most in the data byte. -/
theorem Instr.eq_setData_of_op_eq {i j : Instr} (h : i.op = j.op) : j = i.setData j.data :=
  Instr.ext_fields (by rw [Instr.setData_op, h]) (by rw [Instr.setData_data])

end Sys2Proof

namespace Sys2Proof.Machine

/-- Of the sixteen meanings PUT's alone reads its data byte (30_encoding.md R70, R72). -/
theorem exec_setData {i : Instr} (ho : i.op ≠ 0x9#4) (d : Byte) (s : State) : exec (i.setData d) s = exec i s := by
  cases i with
  | put _ => exact absurd rfl ho
  | _ => rfl

/-! ### The obligations -/

/-- Settles O8, both directions through the two fields of a word. -/
theorem decodeAndEncodeAgree : Obligations.DecodeAndEncodeAgree := ⟨decode_encode, encode_decode⟩

/-- Settles O9: the decoded request has the fields of its word, and each mask keeps one field. -/
theorem maskedWordSelectsTheOperation : Obligations.MaskedWordSelectsTheOperation := by
  intro w
  obtain ⟨ho, hd⟩ := decode_fields w
  rw [ho, hd]
  exact ⟨word_and_opMask w, word_and_dataMask w⟩

/-- Settles O10: words equal under the mask decode to one operation up to its data byte, and that byte is ignored. -/
theorem ignoredDataHasNoEffect : Obligations.IgnoredDataHasNoEffect := by
  intro w v s hwv hput
  have hop : (decode w).op = (decode v).op := by
    rw [(decode_fields w).1, (decode_fields v).1]
    exact opMask_inj.1 hwv
  have hne : (decode w).op ≠ 0x9#4 := by
    rw [(decode_fields w).1]
    exact fun h9 => hput (by rw [word_and_opMask, h9]; rfl)
  rw [Instr.eq_setData_of_op_eq hop, exec_setData hne]

/-- Settles O7: each word is the encoding of its operation. -/
theorem tableWordsDecode : Obligations.TableWordsDecode :=
  ⟨decode_encode (.nop 0), decode_encode (.init 0), decode_encode (.edge 0), decode_encode (.edge 0xFF),
    decode_encode (.tick 0), decode_encode (.get 0), decode_encode (.edgeEna 0), decode_encode (.put 0xA5),
    decode_encode (.reservedA 0), decode_encode (.reservedF 0xFF)⟩

end Sys2Proof.Machine
end

section
/-! The response word (30_encoding.md R73) and the response of each request (R74). -/

namespace Sys2Proof.Machine

/-! ### The fields of a response word -/

/-- The three fields of a response word, bit by bit. -/
theorem responseWord_getLsbD (r : Response) (k : Nat) :
    (responseWord r).getLsbD k =
      if k < 8 then r.data.getLsbD k else if k = 8 then r.valid else (k == 9 && r.err) := by
  have bits : (responseWord r).getLsbD k =
      if k < 8 then r.data.getLsbD k else (BitVec.ofBool r.err ++ BitVec.ofBool r.valid).getLsbD (k - 8) :=
    BitVec.getLsbD_append
  rw [bits, BitVec.getLsbD_append, BitVec.getLsbD_ofBool, BitVec.getLsbD_ofBool]
  split_ifs <;> grind

theorem responseWord_err (r : Response) : (responseWord r).getLsbD 9 = r.err :=
  (responseWord_getLsbD r 9).trans (by simp)

theorem responseWord_valid (r : Response) : (responseWord r).getLsbD 8 = r.valid :=
  (responseWord_getLsbD r 8).trans (by simp)

theorem responseWord_data (r : Response) : (responseWord r).extractLsb' 0 8 = r.data := by
  apply BitVec.eq_of_getLsbD_eq
  intro k hk
  simp [responseWord_getLsbD, hk]

/-! ### The words of the table -/

theorem responseWord_null : responseWord nullResponse = 0x000#10 := by decide

theorem responseWord_reserved : responseWord reservedResponse = 0x200#10 := by decide

theorem responseWord_answerByte (b : Byte) : responseWord (answerByte b) = 0b01#2 ++ b :=
  congrArg (· ++ b) (show BitVec.ofBool false ++ BitVec.ofBool true = 0b01#2 by decide)

theorem responseWord_answerTruth (p : Bool) :
    responseWord (answerTruth p) = if p = true then 0x101#10 else 0x100#10 := by
  cases p <;> decide

/-! ### The response of each request -/

/-- `err` marks the codes reserved on the port, and no others. -/
theorem answer_err_iff (i : Instr) (s : State) :
    (answer i s).err = true ↔ 0xA#4 ≤ i.op ∨ (i.op = 0x9#4 ∧ s.port = .external) := by
  cases i with
  | get d => dsimp only [answer]; split <;> simp [nullResponse, answerByte, Instr.op]
  | put b => dsimp only [answer]; split <;> simp_all [nullResponse, reservedResponse, Instr.op]
  | _ => simp [answer, answerTruth, answerByte, nullResponse, reservedResponse, Instr.op]

/-- `valid` marks the answers: the two predicates, and a GET that finds a command. -/
theorem answer_valid_iff (i : Instr) (s : State) :
    (answer i s).valid = true ↔ i.op = 0x5#4 ∨ i.op = 0x6#4 ∨ (i.op = 0x4#4 ∧ s.fault = false ∧ s.wr ≠ s.rd) := by
  cases i with
  | get d =>
    dsimp only [answer]
    split
    · next h => simpa [nullResponse, Instr.op, isEmpty, imp_iff_not_or] using h
    · next h => simpa [answerByte, Instr.op, isEmpty] using h
  | put b => dsimp only [answer]; split <;> simp [nullResponse, reservedResponse, Instr.op]
  | _ => simp [answer, answerTruth, answerByte, nullResponse, reservedResponse, Instr.op]

theorem answer_get_none (d : Byte) {s : State} (h : s.fault = true ∨ s.wr = s.rd) :
    answer (.get d) s = nullResponse := if_pos (by simpa [isEmpty] using h)

theorem answer_get_some (d : Byte) {s : State} (hf : s.fault = false) (he : s.wr ≠ s.rd) :
    answer (.get d) s = answerByte (Memory.read s.buf s.rd) := if_neg (by simp [isEmpty, hf, he])

/-- A slot that has been written reads as its byte. -/
theorem Memory.read_of_read? {m : List Host.Cell} {a : Nat} {b : Byte} (h : Memory.read? m a = some b) :
    Memory.read m a = b := by rw [Memory.read, h]; rfl

/-- A request with EMPTY's code is EMPTY. -/
theorem op_eq_empty {i : Instr} : i.op = 0x5#4 ↔ ∃ d, i = .empty d := by cases i <;> simp [Instr.op]

/-- A request with FULL's code is FULL. -/
theorem op_eq_full {i : Instr} : i.op = 0x6#4 ↔ ∃ d, i = .full d := by cases i <;> simp [Instr.op]

/-- The requests that answer nothing. -/
theorem answer_silent {i : Instr} (s : State) (h : i.op ∈ [0x0#4, 0x1#4, 0x2#4, 0x3#4, 0x7#4, 0x8#4]) :
    answer i s = nullResponse := by
  cases i with
  | nop _ | init _ | edge _ | tick _ | edgeDis _ | edgeEna _ => rfl
  | _ => exact absurd h (by simp [Instr.op])

/-- The codes reserved on CORE's external port. -/
theorem answer_reserved {i : Instr} {s : State} (hp : s.port = .external) (h : 0x9#4 ≤ i.op) :
    answer i s = reservedResponse := by
  cases i with
  | put _ => exact if_pos hp
  | reservedA _ | reservedB _ | reservedC _ | reservedD _ | reservedE _ | reservedF _ => rfl
  | _ => exact absurd h (by simp [Instr.op])

/-! ### The obligations -/

/-- Settles O50: the response is the answer of the request, read field by field. -/
theorem everyRequestReturnsAResponseWord : Obligations.EveryRequestReturnsAResponseWord := by
  intro i s t h
  rw [responseWord_err, responseWord_valid, responseWord_data, exec_answer h]
  exact ⟨answer_err_iff i s, answer_valid_iff i s, rfl, answer_null i s⟩

/-- Settles O51, row by row of the table. -/
theorem responsesFollowTheTable : Obligations.ResponsesFollowTheTable := by
  intro i s t hp h
  rw [exec_answer h]
  refine ⟨fun ho he hf => ?_, fun ho hn => ?_, fun ho => ?_, fun ho => ?_, fun ho => ?_, fun ho => ?_⟩
  · obtain ⟨d, rfl⟩ := op_eq_get.1 ho
    rw [answer_get_some d hf he]
    exact ⟨_, responseWord_answerByte _, fun b => Memory.read_of_read?⟩
  · obtain ⟨d, rfl⟩ := op_eq_get.1 ho
    rw [answer_get_none d hn.symm, responseWord_null]
  · obtain ⟨d, rfl⟩ := op_eq_empty.1 ho
    simpa [answer] using responseWord_answerTruth (isEmpty s)
  · obtain ⟨d, rfl⟩ := op_eq_full.1 ho
    simpa [answer] using responseWord_answerTruth (isFull s)
  · rw [answer_silent s ho, responseWord_null]
  · rw [answer_reserved hp ho, responseWord_reserved]

end Sys2Proof.Machine
end

section
/-! Traces performed from a state, and the delivery of a frame's command byte (30_encoding.md R75, R77, R85; 40_decoder.md
R106 to R109). -/

namespace Sys2Proof.Machine

/-! ### The trace to come plays no part in a request -/

theorem servedState_setRequests (i : Instr) (s : State) (ws : List RequestWord) :
    servedState i (s.setRequests ws) = (servedState i s).setRequests ws := by
  unfold servedState; split <;> rfl

theorem Change.setRequests {i : Instr} {s u : State} (h : Change i s u) (ws : List RequestWord) :
    Change i (s.setRequests ws) (u.setRequests ws) := by
  cases h with
  | nothing h => exact .nothing h
  | arm ho hf hi => exact .arm ho hf hi
  | doubleInit ho hf hi => exact .doubleInit ho hf hi
  | latch ho hf hi he => exact .latch ho hf hi he
  | disable ho hf hi => exact .disable ho hf hi
  | enable ho hf hi hp => exact .enable ho hf hi hp
  | overflow h hx =>
    have hserved := Change.overflow (s := s.setRequests ws) h hx
    rwa [servedState_setRequests] at hserved
  | resync h hx hv =>
    have hserved := Change.resync (s := s.setRequests ws) h hx hv
    rwa [servedState_setRequests] at hserved
  | advance h hx hv hc =>
    have hserved := Change.advance (s := s.setRequests ws) h hx hv hc
    rwa [servedState_setRequests] at hserved
  | complete h hx hv hc hw =>
    have hserved := Change.complete (s := s.setRequests ws) h hx hv hc hw
    rwa [servedState_setRequests] at hserved
  | count ho hf hi hr he => exact .count ho hf hi hr he
  | timeout ho hf hi hr he => exact .timeout ho hf hi hr he
  | take ho hf he hr => exact .take ho hf he hr
  | put b ho hf hp hw => exact .put b ho hf hp hw

theorem answer_setRequests (i : Instr) (s : State) (ws : List RequestWord) :
    answer i (s.setRequests ws) = answer i s := by
  cases i <;> rfl

theorem exec_setRequests {i : Instr} {s t : State} (h : exec i s = .next t) (ws : List RequestWord) :
    exec i (s.setRequests ws) = .next (t.setRequests ws) := by
  obtain ⟨u, hu, rfl⟩ := exec_next_iff.1 h
  exact exec_next_iff.2 ⟨_, hu.setRequests ws, by rw [answer_setRequests]; rfl⟩

/-! ### Traces performed from a state -/

/-- A run goes on from where a run ended. -/
theorem run_add_next {M : Host.Core} {j k : Nat} {s u t : M.State} (hj : M.run j s = .next u)
    (hk : M.run k u = .next t) : M.run (j + k) s = .next t := by
  induction j generalizing s with
  | zero =>
    obtain rfl := run_zero_next.1 hj
    rwa [Nat.zero_add]
  | succ j ih =>
    obtain ⟨v, hv, hj⟩ := run_succ_next.1 hj
    rw [Nat.succ_add]
    exact run_succ_next.2 ⟨v, hv, ih hj⟩

/-- The words `ws`, whatever is presented after them, take the state `s` to `t` (00_scope.md R12). -/
def performs (ws : List RequestWord) (s t : State) : Prop :=
  ∀ rest, Host.Core.run Sys2Proof.core ws.length (s.setRequests (ws ++ rest)) = .next (t.setRequests rest)

theorem performs_nil (s : State) : performs [] s s := fun _ => rfl

theorem performs_word {w : RequestWord} {s t : State} (hl : s.params.legal = true)
    (h : exec (decode w) s = .next t) : performs [w] s t := fun rest =>
  run_succ_next.2 ⟨_, (step_legal (s := s.setRequests (w :: rest)) hl).trans (exec_setRequests h rest), rfl⟩

theorem performs.append {ws vs : List RequestWord} {s u t : State} (h : performs ws s u) (h' : performs vs u t) :
    performs (ws ++ vs) s t := fun rest => by
  rw [List.length_append, List.append_assoc]
  exact run_add_next (h _) (h' _)

/-! ### One pulse -/

/-- An edge has just been serviced in a block that takes edges: the timer runs and counts from 0 (40_decoder.md R109). -/
structure State.afterEdge (s : State) : Prop where
  legal   : s.params.legal = true
  takes   : s.takesEdges
  running : s.run = true
  fresh   : s.elapsed = 0
  null    : s.resp = nullResponse

/-- The state with `n` TICKs counted since the last serviced edge. -/
def State.waited (s : State) (n : Nat) : State := { s with elapsed := BitVec.ofNat 8 n }

theorem State.afterEdge.advance {s : State} (h : s.afterEdge) (i : Byte) (a : Acc) : (s.advance i a).afterEdge :=
  { h with }

/-- A serviced edge leaves no trace of the wait before it. -/
theorem State.afterEdge.restart_waited {s : State} (h : s.afterEdge) (n : Nat) :
    (s.waited n).restart.respond nullResponse = s := by
  obtain ⟨-, -, hr, he, hn⟩ := h
  cases s
  subst hr he hn
  rfl

theorem decode_tickWord : decode Trace.tickWord = .tick 0 := decode_encode (.tick 0)

theorem decode_edgeWord : decode Trace.edgeWord = .edge 0 := decode_encode (.edge 0)

theorem performs_ticks {s : State} (h : s.afterEdge) {n : Nat} (hn : n ≤ s.params.tTimeout.toNat) :
    performs (Trace.ticks n) s (s.waited n) := by
  obtain ⟨hl, ⟨hi, hf, -⟩, hr, he, hnull⟩ := h
  induction n with
  | zero =>
    have hzero : s.waited 0 = s := by cases s; subst he; rfl
    rw [hzero]
    exact performs_nil s
  | succ n ih =>
    have hlt : (s.waited n).elapsed < s.params.tTimeout := by
      simp only [State.waited]
      bv_omega
    have htick : exec (.tick 0) (s.waited n) = .next (s.waited (n + 1)) := by
      rw [exec_of_change (i := .tick 0) (s := s.waited n) (.count rfl hf hi hr hlt)]
      change Host.Outcome.next ((s.waited n).countTick.respond nullResponse) = _
      rw [← hnull, State.waited, State.waited, BitVec.ofNat_add]
      rfl
    rw [Trace.ticks, List.replicate_succ']
    exact (ih (by omega)).append (performs_word hl (decode_tickWord ▸ htick))

theorem performs_pulse {s t : State} (h : s.afterEdge) {n : Nat} (hn : n ≤ s.params.tTimeout.toNat)
    (he : exec (.edge 0) (s.waited n) = .next t) : performs (Trace.pulse n) s t :=
  (performs_ticks h hn).append (performs_word h.legal (decode_edgeWord ▸ he))

/-- A valid pulse away from completion: the index and the accumulator advance (40_decoder.md R106, R107). -/
theorem performs_validPulse {s : State} (h : s.afterEdge) {n : Nat} {i : Byte} (hn : n ≤ s.params.tTimeout.toNat)
    (hi : i = s.idx + 1#8) (hx : s.idx ≠ s.params.idxMax) (hv : window i (BitVec.ofNat 8 n) = true)
    (hc : isCompletion i = false) :
    performs (Trace.pulse n) s (s.advance i (accAfter i (BitVec.ofNat 8 n) s.acc)) := by
  subst hi
  obtain ⟨hinit, hf, he⟩ := h.takes
  apply performs_pulse h hn
  rw [exec_of_change (i := .edge 0) (s := s.waited n) (.advance ⟨hf, hinit, .inl ⟨rfl, he⟩⟩ hx hv hc)]
  exact congrArg _ ((h.advance _ _).restart_waited n)

/-- A valid completion pulse: the advance, and a PUT of the command byte (40_decoder.md R108). -/
theorem performs_completionPulse {s : State} (h : s.afterEdge) {n : Nat} {i : Byte} (hn : n ≤ s.params.tTimeout.toNat)
    (hi : i = s.idx + 1#8) (hx : s.idx ≠ s.params.idxMax) (hv : window i (BitVec.ofNat 8 n) = true)
    (hc : isCompletion i = true) (hw : s.wr < s.params.slots) :
    performs (Trace.pulse n) s
      (stored (s.advance i (accAfter i (BitVec.ofNat 8 n) s.acc)) (commandByte (accAfter i (BitVec.ofNat 8 n) s.acc))) := by
  subst hi
  obtain ⟨hinit, hf, he⟩ := h.takes
  apply performs_pulse h hn
  rw [exec_of_change (i := .edge 0) (s := s.waited n) (.complete ⟨hf, hinit, .inl ⟨rfl, he⟩⟩ hx hv hc hw)]
  exact congrArg (fun t => Host.Outcome.next (stored t (commandByte (accAfter (s.idx + 1#8) (BitVec.ofNat 8 n) s.acc))))
    ((h.advance (s.idx + 1#8) _).restart_waited n)

/-! ### The pulses of a frame -/

/-- An index inside a frame is below the largest one (00_scope.md R8: `IDX_MAX` is 37 or more). -/
theorem ne_idxMax {p : Params} (hl : p.legal = true) {i : Byte} (hi : i.toNat < 37) : i ≠ p.idxMax := by
  obtain ⟨-, -, hmax⟩ := (Params.legal_iff _).1 hl
  rintro rfl
  omega

/-- The window of a data pulse (40_decoder.md R104). -/
theorem window_data {i e : Byte} (h3 : 3 ≤ i.toNat) (h34 : i.toNat ≤ 34) (he : e.toNat < 5) : window i e = true := by
  have h1 : i ≠ 1 := by rintro rfl; exact absurd h3 (by decide)
  have h2 : i ≠ 2 := by rintro rfl; exact absurd h3 (by decide)
  rw [window, if_neg h1, if_neg h2, if_pos (by simpa [literals, BitVec.le_def] using And.intro h3 h34)]
  simpa [literals, BitVec.lt_def] using he

/-- The bit that a data pulse `g` milliseconds after its predecessor carries (30_encoding.md R77). -/
def gapBit (g : Nat) : Bool := decide (2 ≤ g)

theorem accAfter_data {i : Byte} (h3 : 3 ≤ i.toNat) (h34 : i.toNat ≤ 34) {g : Nat} (hg : g < 5) (a : Acc) :
    accAfter i (BitVec.ofNat 8 g) a = shiftIn a (gapBit g) := by
  rw [accAfter, if_pos ((isData_iff i).2 ⟨h3, h34⟩), dataBit_eq, BitVec.toNat_ofNat, Nat.mod_eq_of_lt (by omega), gapBit]

/-- The accumulator after the bits of a list are shifted in, the first one first. -/
def shiftBits (a : Acc) (bs : List Bool) : Acc := bs.foldl shiftIn a

/-- Data pulses short of the frame's last shift their bits in (40_decoder.md R107). -/
theorem performs_dataPulses {s : State} (h : s.afterEdge) {gaps : List Nat} (hi : 2 ≤ s.idx.toNat)
    (hlen : s.idx.toNat + gaps.length ≤ 33) (hg : ∀ g ∈ gaps, g < 5) :
    performs (gaps.flatMap Trace.pulse) s
      (s.advance (s.idx + BitVec.ofNat 8 gaps.length) (shiftBits s.acc (gaps.map gapBit))) := by
  induction gaps generalizing s with
  | nil =>
    have hsame : s.advance (s.idx + 0#8) s.acc = s := by rw [BitVec.add_zero]; rfl
    exact hsame.symm ▸ performs_nil s
  | cons g gaps ih =>
    rw [List.length_cons] at hlen
    obtain ⟨hg, hgs⟩ := List.forall_mem_cons.1 hg
    obtain ⟨-, htimeout, -⟩ := (Params.legal_iff _).1 h.legal
    obtain ⟨i, hnext⟩ : ∃ i, i = s.idx + 1#8 := ⟨_, rfl⟩
    have hval : i.toNat = s.idx.toNat + 1 := by bv_omega
    have hfirst : performs (Trace.pulse g) s (s.advance i (shiftIn s.acc (gapBit g))) := by
      rw [← accAfter_data (i := i) (by omega) (by omega) hg]
      refine performs_validPulse h (by omega) hnext (ne_idxMax h.legal (by omega)) ?_ ?_
      · exact window_data (by omega) (by omega) (by rw [BitVec.toNat_ofNat]; omega)
      · rw [← Bool.not_eq_true, isCompletion_iff]; omega
    have hindex : s.idx + BitVec.ofNat 8 (gaps.length + 1) = i + BitVec.ofNat 8 gaps.length := by
      rw [hnext, BitVec.ofNat_add, BitVec.add_assoc, BitVec.add_comm (BitVec.ofNat 8 gaps.length)]
    rw [List.flatMap_cons, List.length_cons, hindex]
    exact hfirst.append (ih (h.advance i _) (show 2 ≤ i.toNat by omega) (show i.toNat + _ ≤ 33 by omega) hgs)

/-- After the first edge of a frame: the second edge and 32 data pulses inside their windows shift 32 bits in and end in
one PUT of the command byte (40_decoder.md R113). -/
theorem performs_frameBody {s : State} (h : s.afterEdge) (hx : s.idx = 1) (hw : s.wr < s.params.slots) {sync : Nat}
    (hsync : sync < 10) {gaps : List Nat} (hlen : gaps.length = 32) (hg : ∀ g ∈ gaps, g < 5) {a : Acc}
    (ha : a = shiftBits s.acc (gaps.map gapBit)) :
    performs (Trace.pulse sync ++ gaps.flatMap Trace.pulse) s (stored (s.advance 34 a) (commandByte a)) := by
  obtain ⟨-, htimeout, -⟩ := (Params.legal_iff _).1 h.legal
  have hsecond : performs (Trace.pulse sync) s (s.advance 2 s.acc) := by
    refine performs_validPulse (i := 2) h (by omega) (by rw [hx]; rfl) (ne_idxMax h.legal (by rw [hx]; decide)) ?_ rfl
    exact decide_eq_true (show BitVec.ofNat 8 sync < 10#8 by bv_omega)
  obtain ⟨front, last, rfl⟩ : ∃ front last, gaps = front ++ [last] :=
    ⟨_, _, (List.dropLast_append_getLast (List.ne_nil_of_length_pos (by omega))).symm⟩
  obtain ⟨hfront, hlast⟩ := List.forall_mem_append.1 hg
  have hlast : last < 5 := hlast last (by simp)
  have hcount : front.length = 31 := by simpa using hlen
  have hdata := performs_dataPulses (h.advance 2 s.acc) (gaps := front) (show 2 ≤ (2#8).toNat by decide)
    (by rw [hcount]; rfl) hfront
  rw [hcount] at hdata
  have hdone := performs_completionPulse (h.advance 33 (shiftBits s.acc (front.map gapBit))) (n := last) (i := 34)
    (show last ≤ s.params.tTimeout.toNat by omega) rfl (ne_idxMax h.legal (show (33#8).toNat < 37 by decide))
    (window_data (by decide) (by decide) (by rw [BitVec.toNat_ofNat]; omega)) (by decide) hw
  rw [accAfter_data (by decide) (by decide) hlast] at hdone
  have hbits : a = shiftIn (shiftBits s.acc (front.map gapBit)) (gapBit last) := by simp [ha, shiftBits]
  rw [List.flatMap_append, List.flatMap_singleton, hbits]
  exact hsecond.append (hdata.append hdone)

end Sys2Proof.Machine
end

section
/-! `NECFRAME` and the GET after it (30_encoding.md R75, R85; 42_ringbuffer.md R141). -/

namespace Sys2Proof.Machine

/-! ### The first edge of a frame -/

/-- From idle an edge reaches index 1 whatever the sample: index 1 is where a valid first pulse and a resync both lead
(40_decoder.md R110). -/
theorem exec_firstEdge {s : State} (hl : s.params.legal = true) (ht : s.takesEdges) (hx : s.idx = 0) (ha : s.acc = 0)
    (d : Byte) : exec (.edge d) s = .next ((s.advance 1 0).restart.respond nullResponse) := by
  obtain ⟨hi, hf, he⟩ := ht
  have hserves : serves (.edge d) s := ⟨hf, hi, .inl ⟨rfl, he⟩⟩
  have hmax : s.idx ≠ s.params.idxMax := ne_idxMax hl (by rw [hx]; decide)
  have hnext : s.idx + 1#8 = 1 := by rw [hx]; rfl
  cases hv : window (s.idx + 1#8) s.elapsed with
  | false => exact exec_of_change (.resync hserves hmax hv)
  | true =>
    have hacc : accAfter (s.idx + 1#8) s.elapsed s.acc = 0 := by rw [hnext, ha]; rfl
    have := exec_of_change (.advance hserves hmax hv (by rw [hnext]; rfl))
    rwa [hacc, hnext] at this

/-- The state after it. -/
theorem afterEdge_firstEdge {s : State} (hl : s.params.legal = true) (ht : s.takesEdges) :
    ((s.advance 1 0).restart.respond nullResponse).afterEdge :=
  { legal := hl, takes := ht, running := rfl, fresh := rfl, null := rfl }

/-! ### The bits of a frame -/

theorem shiftIn_getLsbD (a : Acc) (b : Bool) {k : Nat} (hk : k < 32) :
    (shiftIn a b).getLsbD k = if k = 0 then b else a.getLsbD (k - 1) := by
  have bits : (shiftIn a b).getLsbD k =
      if k < 1 then (BitVec.ofBool b).getLsbD k else (a.extractLsb' 0 31).getLsbD (k - 1) := by
    rw [shiftIn_eq]; exact BitVec.getLsbD_append
  rw [bits, BitVec.getLsbD_ofBool, BitVec.getLsbD_extractLsb']
  split_ifs <;> grind

/-- The last bit shifted in is the lowest; above the bits shifted in stand the accumulator's own. -/
theorem shiftBits_getLsbD (bs : List Bool) (a : Acc) {k : Nat} (hk : k < 32) :
    (shiftBits a bs).getLsbD k =
      if k < bs.length then bs.getD (bs.length - 1 - k) false else a.getLsbD (k - bs.length) := by
  induction bs generalizing a with
  | nil => simp [shiftBits]
  | cons b bs ih =>
    have hcons : shiftBits a (b :: bs) = shiftBits (shiftIn a b) bs := rfl
    rw [hcons, ih, shiftIn_getLsbD _ _ (by omega)]
    grind

/-- The gap of a data pulse that carries a bit (30_encoding.md R85). -/
def bitGap (b : Bool) : Nat := if b then 2 else 1

theorem bitPulse_eq (b : Bool) : Trace.bitPulse b = Trace.pulse (bitGap b) := by cases b <;> rfl

theorem gapBit_bitGap (b : Bool) : gapBit (bitGap b) = b := by cases b <;> rfl

theorem bitGap_lt (b : Bool) : bitGap b < 5 := by cases b <;> decide

/-- A frame's 32 bits in the order sent: the bits of the accumulator, the highest first (30_encoding.md R75). -/
def frameBits (w : Acc) : List Bool := (List.range 32).map fun k => w.getLsbD (31 - k)

theorem frame_eq (w : Acc) :
    Trace.frame w = [Trace.edgeWord] ++ (Trace.pulse 9 ++ ((frameBits w).map bitGap).flatMap Trace.pulse) := by
  simp [Trace.frame, Trace.bytePulses, frameBits, bitPulse_eq, List.range_succ, addrByte, addrInvertedByte, commandByte,
    commandInvertedByte, BitVec.getLsbD_extractLsb']

/-- Shifted in, a frame's bits are its word. -/
theorem shiftBits_frameBits (a w : Acc) : shiftBits a (frameBits w) = w := by
  apply BitVec.eq_of_getLsbD_eq
  intro k hk
  have hlen : (frameBits w).length = 32 := by simp [frameBits]
  rw [shiftBits_getLsbD _ _ hk, hlen, if_pos hk, frameBits]
  simp [List.getD_eq_getElem?_getD, show 31 - k < 32 by omega, show 31 - (31 - k) = k by omega]

/-- The word that `NECFRAME(a, c)` sends: each byte followed by its complement (30_encoding.md R85). -/
def necWord (a c : Byte) : Acc := a ++ (a ^^^ 0xFF) ++ c ++ (c ^^^ 0xFF)

theorem necFrame_eq (a c : Byte) : Trace.necFrame a c = Trace.frame (necWord a c) := rfl

/-- Byte 1 of that word is the command (30_encoding.md R75). -/
theorem commandByte_necWord (a c : Byte) : commandByte (necWord a c) = c := by
  apply BitVec.eq_of_getLsbD_eq
  intro k hk
  have bits : (necWord a c).getLsbD (8 + k) =
      if 8 + k < 8 then (c ^^^ 0xFF).getLsbD (8 + k) else (a ++ (a ^^^ 0xFF) ++ c).getLsbD (8 + k - 8) :=
    BitVec.getLsbD_append
  rw [commandByte, BitVec.getLsbD_extractLsb', bits, if_neg (by omega), BitVec.getLsbD_append]
  simp [hk]

/-! ### The frame, and the GET after it -/

/-- The state of a block in which a frame has brought the decoder to index 34, the PUT of its command byte apart. -/
def State.frameReceived (s : State) (w : Acc) : State :=
  ((s.advance 1 0).restart.respond nullResponse).advance 34 w

/-- From idle a frame ends at index 34 with its word in the accumulator, in one PUT of the command byte (40_decoder.md
R113). -/
theorem performs_frame {s : State} (hl : s.params.legal = true) (ht : s.takesEdges) (hx : s.idx = 0) (ha : s.acc = 0)
    (hw : s.wr < s.params.slots) (w : Acc) :
    performs (Trace.frame w) s (stored (s.frameReceived w) (commandByte w)) := by
  have hfirst := performs_word hl (decode_edgeWord ▸ exec_firstEdge hl ht hx ha 0)
  have hbits : ((frameBits w).map bitGap).map gapBit = frameBits w := by simp [Function.comp_def, gapBit_bitGap]
  have hbody := performs_frameBody (afterEdge_firstEdge hl ht) rfl hw (sync := 9) (by decide)
    (gaps := (frameBits w).map bitGap) (by simp [frameBits])
    (fun g hg => by obtain ⟨b, -, rfl⟩ := List.mem_map.1 hg; exact bitGap_lt b)
    (a := w) (by rw [hbits, shiftBits_frameBits])
  rw [frame_eq]
  exact hfirst.append hbody

/-- A PUT into an empty ring moves the write cursor off the read cursor, which it leaves at the byte stored. -/
theorem stored_of_empty {s : State} (hn : 2 ≤ s.params.slots) (hw : s.wr < s.params.slots) (he : s.rd = s.wr)
    (b : Byte) : (stored s b).rd = s.wr ∧ (stored s b).wr ≠ s.wr := by
  have hmoved : nextSlot s.params.slots s.wr ≠ s.wr := by
    rw [nextSlot_eq hw]
    split_ifs <;> omega
  exact ⟨by rw [stored_rd, he, if_neg hmoved], hmoved⟩

/-- A GET after a PUT into an empty ring answers the byte stored and leaves the ring empty. -/
theorem exec_get_stored {s : State} (hf : s.fault = false) (hn : 2 ≤ s.params.slots) (hw : s.wr < s.params.slots)
    (he : s.rd = s.wr) (b d : Byte) :
    ∃ t, exec (.get d) (stored s b) = .next t ∧ t.resp = answerByte b ∧ t.wr = t.rd := by
  obtain ⟨hrd, hwr⟩ := stored_of_empty hn hw he b
  have hunread : (stored s b).wr ≠ (stored s b).rd := by rw [hrd]; exact hwr
  have hread : Memory.read (stored s b).buf (stored s b).rd = b := by
    rw [hrd]
    exact Memory.read_of_read? (by rw [stored_buf, Memory.read?_write, if_pos rfl])
  refine ⟨_, exec_of_change (i := .get d) (s := stored s b) (.take rfl hf hunread (by rw [hrd]; exact hw)), ?_, ?_⟩
  · rw [State.respond_resp, answer_get_some (s := stored s b) d hf hunread, hread]
  · rw [State.respond_wr, State.respond_rd, State.advanceRd_wr, State.advanceRd_rd, hrd]
    rfl

theorem decode_getWord : decode 0x400#12 = .get 0 := decode_encode (.get 0)

/-! ### The obligation -/

/-- Settles O30: the frame stores `c` in the empty ring, and the GET takes it. -/
theorem necFrameDeliversItsCommand : Obligations.NecFrameDeliversItsCommand := by
  intro a c s ws hl ht hx ha hw he
  obtain ⟨hn, -, -⟩ := (Params.legal_iff _).1 hl
  have ⟨_, hf, _⟩ := ht
  have hframe := performs_frame hl ht hx ha hw (necWord a c)
  rw [commandByte_necWord, ← necFrame_eq] at hframe
  obtain ⟨t, hget, hresp, hempty⟩ := exec_get_stored (s := s.frameReceived (necWord a c)) hf hn hw he c 0
  have hrun := hframe.append (performs_word hl (decode_getWord ▸ hget)) ws
  rw [List.length_append, List.append_assoc] at hrun
  exact ⟨_, hrun, hresp, hempty, rfl⟩

end Sys2Proof.Machine
end

section
/-! The pulse-width decoder (40_decoder.md): the validity table, each outcome of a serviced edge as the next state of the
request, the frame of the edge operations, and the acceptance of a frame. -/

namespace Sys2Proof.Machine

/-! ### The operands of a pulse as numbers -/

/-- The validity function, row by row of its table (40_decoder.md R104). -/
theorem window_iff (i e : Byte) : window i e = true ↔
    (i.toNat = 1 ∧ e.toNat = 0) ∨ (i.toNat = 2 ∧ e.toNat < 10) ∨
    (3 ≤ i.toNat ∧ i.toNat ≤ 34 ∧ e.toNat < 5) ∨ (i.toNat = 35 ∧ e.toNat < 50) ∨ (i.toNat = 36 ∧ e.toNat < 5) ∨
    (37 ≤ i.toNat ∧ i.toNat % 2 = 1 ∧ e.toNat < 110) ∨ (37 ≤ i.toNat ∧ i.toNat % 2 = 0 ∧ e.toNat < 5) := by
  simp only [window, literals, isOdd_iff, BitVec.le_def, BitVec.lt_def, ← BitVec.toNat_inj]
  split_ifs <;> simp only [decide_eq_true_eq, false_iff] <;> bv_omega

/-- The accumulator after a valid pulse, with the shift as `{acc[30:0], b}` (40_decoder.md R107). -/
theorem accAfter_eq (i e : Byte) (a : Acc) :
    accAfter i e a =
      if 3 ≤ i.toNat ∧ i.toNat ≤ 34 then a.extractLsb' 0 31 ++ BitVec.ofBool (decide (2 ≤ e.toNat)) else a := by
  rw [accAfter, shiftIn_eq, dataBit_eq]
  exact if_congr (isData_iff i) rfl rfl

/-- Of the completion indices only 34 is a data pulse's (40_decoder.md R108). -/
theorem accAfter_of_completesFrame {i : Byte} (h : completesFrame i) (e : Byte) (a : Acc) :
    accAfter i e a =
      if i.toNat = 34 then a.extractLsb' 0 31 ++ BitVec.ofBool (decide (2 ≤ e.toNat)) else a := by
  rw [accAfter_eq]
  exact if_congr (by unfold completesFrame at h; omega) rfl rfl

/-- Past the data pulses the accumulator stays as it was (40_decoder.md R107, R111). -/
theorem accAfter_past_frame {i : Byte} (h : 35 ≤ i.toNat) (e : Byte) (a : Acc) : accAfter i e a = a := by
  rw [accAfter_eq, if_neg (by omega)]

/-! ### The outcomes of a serviced edge -/

section
variable {i : Instr} {s u : State} (h : services i s u)
include h

theorem exec_services_overflow (hx : u.idx = u.params.idxMax) :
    exec i s = .next ((u.raiseFault fcodeIdxOverflow).respond nullResponse) := by
  rw [exec_services h, serviceEdge_eq, if_pos hx]; rfl

theorem exec_services_resync (hx : u.idx ≠ u.params.idxMax) (hv : window (u.idx + 1#8) u.elapsed = false) :
    exec i s = .next (u.resync.restart.respond nullResponse) := by
  rw [exec_services h, serviceEdge_eq, if_neg hx, if_neg (by simp [hv])]; rfl

theorem exec_services_advance (hx : u.idx ≠ u.params.idxMax) (hv : window (u.idx + 1#8) u.elapsed = true)
    (hc : ¬ completesFrame (u.idx + 1#8)) :
    exec i s = .next
      ((u.advance (u.idx + 1#8) (accAfter (u.idx + 1#8) u.elapsed u.acc)).restart.respond nullResponse) := by
  rw [exec_services h, serviceEdge_eq, if_neg hx, if_pos hv, if_neg (by rwa [isCompletion_iff])]; rfl

theorem exec_services_complete (hx : u.idx ≠ u.params.idxMax) (hv : window (u.idx + 1#8) u.elapsed = true)
    (hc : completesFrame (u.idx + 1#8)) (hw : u.wr < u.params.slots) :
    exec i s = .next ((completed u).respond nullResponse) := by
  rw [exec_services h, serviceEdge_eq, if_neg hx, if_pos hv, if_pos ((isCompletion_iff _).2 hc), if_pos hw]; rfl

end

/-- A serviced edge that is no valid completion pulse leaves the ring alone (40_decoder.md R102, R105, R107). -/
theorem serviceEdge_keeps_ring {s t : State} (h : serviceEdge s = .next t)
    (hn : ¬ (s.idx ≠ s.params.idxMax ∧ window (s.idx + 1#8) s.elapsed = true ∧ completesFrame (s.idx + 1#8))) :
    t.buf = s.buf ∧ t.wr = s.wr ∧ t.rd = s.rd := by
  rcases serviceEdge_next h with ⟨-, rfl⟩ | ⟨-, -, rfl⟩ | ⟨-, -, -, rfl⟩ | ⟨hx, hv, hc, -⟩
  · exact ⟨rfl, rfl, rfl⟩
  · exact ⟨rfl, rfl, rfl⟩
  · exact ⟨rfl, rfl, rfl⟩
  · exact absurd ⟨hx, hv, (isCompletion_iff _).1 hc⟩ hn

/-! ### What a request does to the ring, the accumulator and the index -/

/-- Ring storage changes at most in the slot of the write cursor (42_ringbuffer.md R140). -/
theorem Change.buf_kept_off_wr {i : Instr} {s u : State} (h : Change i s u) {x : Nat} (hx : x ≠ s.wr) :
    Memory.read? u.buf x = Memory.read? s.buf x := by
  obtain ⟨-, -, -, -, hb, hw, -⟩ := servedState_same i s
  cases h with
  | overflow _ | resync _ | advance _ => exact congrArg (Memory.read? · x) hb
  | complete _ =>
    rw [completed_eq_stored, stored_buf, Memory.read?_write]
    show (if (servedState i s).wr = x then _ else Memory.read? (servedState i s).buf x) = _
    rw [hw, hb, if_neg hx.symm]
  | put b => rw [stored_buf, Memory.read?_write, if_neg hx.symm]
  | _ => rfl

/-- The ring is reached by a valid completion pulse, and by INIT, GET and PUT (42_ringbuffer.md R140, R141). -/
theorem Change.ring_kept_or_completes {i : Instr} {s u : State} (h : Change i s u) :
    (u.buf = s.buf ∧ u.wr = s.wr ∧ u.rd = s.rd) ∨
    (serves i s ∧ s.idx ≠ s.params.idxMax ∧ window (s.idx + 1#8) s.elapsed = true ∧ completesFrame (s.idx + 1#8)) ∨
    i.op ∈ [0x1#4, 0x4#4, 0x9#4] := by
  obtain ⟨-, -, -, -, hb, hw, hr⟩ := servedState_same i s
  cases h with
  | overflow _ | resync _ | advance _ => exact .inl ⟨hb, hw, hr⟩
  | complete hs hx hv hc => exact .inr (.inl ⟨hs, hx, hv, (isCompletion_iff _).1 hc⟩)
  | arm ho | take ho => exact .inr (.inr (by simp [ho]))
  | put b ho => exact .inr (.inr (by simp [ho, Instr.op]))
  | _ => exact .inl ⟨rfl, rfl, rfl⟩

/-- Past index 34 no pulse shifts, and every other write of the accumulator puts the index back (40_decoder.md R111). -/
theorem Change.acc_kept_past_frame {i : Instr} {s u : State} (h : Change i s u) (hu : 35 ≤ u.idx.toNat) :
    u.acc = s.acc := by
  obtain ⟨-, hx, he, ha, -⟩ := servedState_same i s
  cases h with
  | arm | timeout => exact absurd (show 35 ≤ (0#8).toNat from hu) (by decide)
  | resync => exact absurd (show 35 ≤ (1#8).toNat from hu) (by decide)
  | overflow => exact ha
  | advance => exact accAfter_past_frame hu _ _
  | complete => exact (accAfter_past_frame hu _ _).trans ha
  | _ => rfl

/-- Every movement of the index (40_decoder.md R118). -/
theorem Change.idx_moves {i : Instr} {s u : State} (h : Change i s u) :
    u.idx = s.idx ∨
    (u.idx = s.idx + 1#8 ∧ s.idx ≠ s.params.idxMax ∧ window (s.idx + 1#8) s.elapsed = true ∧ serves i s) ∨
    (u.idx = 1 ∧ s.idx ≠ s.params.idxMax ∧ window (s.idx + 1#8) s.elapsed = false ∧ serves i s) ∨
    (u.idx = 0 ∧ i.op = 0x3#4 ∧ s.run = true ∧ s.params.tTimeout ≤ s.elapsed) ∨
    (u.idx = 0 ∧ i.op = 0x1#4 ∧ s.inited = false) := by
  obtain ⟨-, hi, -⟩ := servedState_same i s
  cases h with
  | overflow => exact .inl hi
  | advance hs hx hv => exact .inr (.inl ⟨rfl, hx, hv, hs⟩)
  | complete hs hx hv => exact .inr (.inl ⟨congrArg (· + 1#8) hi, hx, hv, hs⟩)
  | resync hs hx hv => exact .inr (.inr (.inl ⟨rfl, hx, hv, hs⟩))
  | timeout ho _ _ hr he => exact .inr (.inr (.inr (.inl ⟨rfl, ho, hr, he⟩)))
  | arm ho _ hn => exact .inr (.inr (.inr (.inr ⟨rfl, ho, hn⟩)))
  | _ => exact .inl rfl

/-! ### From idle -/

/-- At index 0 with a clear accumulator a valid pulse and an invalid one leave one state (40_decoder.md R110). -/
theorem exec_services_of_idle {i : Instr} {s u : State} (h : services i s u) (hx : u.idx = 0) (ha : u.acc = 0)
    (hm : u.params.idxMax ≠ 0) : exec i s = done (u.advance 1 0).restart := by
  have hmax : u.idx ≠ u.params.idxMax := by rw [hx]; exact hm.symm
  have hnext : u.idx + 1#8 = 1 := by rw [hx]; rfl
  cases hv : window (u.idx + 1#8) u.elapsed with
  | false => exact exec_services_resync h hmax hv
  | true =>
    have hadvance := exec_services_advance h hmax hv (by rw [hnext]; decide)
    rwa [hnext, ha] at hadvance

/-- At index 0 with a clear accumulator TICKs move the timer at most: a timeout there changes nothing else (41_timeout.md
R131). -/
theorem exec_tick_of_idle {s : State} (ht : s.takesEdges) (hx : s.idx = 0) (ha : s.acc = 0) (d : Byte) :
    ∃ e r, exec (.tick d) s = .next ({ s with elapsed := e, run := r }.respond nullResponse) := by
  obtain ⟨hi, hf, -⟩ := ht
  have hexec : exec (.tick d) s = done (if s.run then countOrTimeout s else s) := whenArmed_runs _ hf hi
  rw [hexec]
  unfold countOrTimeout
  split_ifs
  · exact ⟨_, _, rfl⟩
  · exact ⟨0, false, by cases s; subst hx ha; rfl⟩
  · exact ⟨s.elapsed, s.run, rfl⟩

/-- A stretch of TICKs from index 0 with a clear accumulator: the timer and the response are all it can touch. -/
theorem performs_ticks_of_idle {s : State} (hl : s.params.legal = true) (ht : s.takesEdges) (hx : s.idx = 0)
    (ha : s.acc = 0) (n : Nat) :
    ∃ e r p, performs (Trace.ticks n) s { s with elapsed := e, run := r, resp := p } := by
  induction n with
  | zero => exact ⟨_, _, _, performs_nil s⟩
  | succ n ih =>
    obtain ⟨e, r, p, hn⟩ := ih
    obtain ⟨e', r', htick⟩ := exec_tick_of_idle (s := { s with elapsed := e, run := r, resp := p }) ht hx ha 0
    rw [Trace.ticks, List.replicate_succ']
    exact ⟨e', r', _, hn.append (performs_word hl (decode_tickWord ▸ htick))⟩

/-- From idle, an edge after any number of TICKs reaches index 1 (40_decoder.md R110, R113). -/
theorem performs_firstPulse {s : State} (hl : s.params.legal = true) (ht : s.takesEdges) (hx : s.idx = 0)
    (ha : s.acc = 0) (n : Nat) :
    performs (Trace.pulse n) s ((s.advance 1 0).restart.respond nullResponse) := by
  obtain ⟨e, r, p, hn⟩ := performs_ticks_of_idle hl ht hx ha n
  have hedge := exec_firstEdge (s := { s with elapsed := e, run := r, resp := p }) hl ht hx ha 0
  exact hn.append (performs_word hl (decode_edgeWord ▸ hedge))

/-- The bits of a frame's data pulses, the first of them highest (40_decoder.md R113). -/
theorem shiftBits_gaps_getLsbD {gaps : List Nat} (hlen : gaps.length = 32) (a : Acc) {k : Nat} (hk : k < 32) :
    (shiftBits a (gaps.map gapBit)).getLsbD (31 - k) = decide (2 ≤ gaps.getD k 0) := by
  have hpos : 32 - 1 - (31 - k) = k := by omega
  rw [shiftBits_getLsbD _ _ (by omega), List.length_map, hlen, if_pos (by omega), hpos]
  exact List.getD_map gaps 0 gapBit

/-! ### The obligations -/

/-- Settles O19, row by row of the table. -/
theorem windowIsTheValidityTable : Obligations.WindowIsTheValidityTable := window_iff

/-- Settles O20: EDGE is guarded, and past its guards it reads the enable. -/
theorem unservicedEdgeIsInertOrLatched : Obligations.UnservicedEdgeIsInertOrLatched := by
  refine fun d s => ⟨fun hn => ?_, fun hf hi he => ?_⟩
  · exact exec_inert (i := .edge d) (hn.imp_right fun hi => by simp [Instr.op, hi])
  · exact exec_of_change (i := .edge d) (.latch rfl hf hi he)

/-- Settles O21: the overflow check comes first. -/
theorem servicedEdgeAtIdxMaxOverflows : Obligations.ServicedEdgeAtIdxMaxOverflows :=
  fun _ _ _ h hx => exec_services_overflow h hx

/-- Settles O22: the resync outcome of the service sequence. -/
theorem invalidPulseResyncs : Obligations.InvalidPulseResyncs :=
  fun _ _ _ h hx hv => exec_services_resync h hx hv

/-- Settles O23: the two advancing outcomes of the service sequence. -/
theorem validPulseAdvancesAndShifts : Obligations.ValidPulseAdvancesAndShifts := by
  rintro i s u v h hx hv rfl
  rw [← accAfter_eq]
  exact ⟨exec_services_advance h hx hv, fun hc hw => ⟨_, exec_services_complete h hx hv hc hw, rfl⟩⟩

/-- Settles O24: the completion outcome stores at the write cursor, and no other outcome reaches the ring. -/
theorem completionPulsePushesTheCommandByte : Obligations.CompletionPulsePushesTheCommandByte := by
  constructor
  · rintro i s u a h hx hv hc hw rfl
    rw [← accAfter_of_completesFrame hc]
    refine ⟨_, exec_services_complete h hx hv hc hw, rfl, rfl, if_congr (isFull_iff u) rfl rfl, ?_, fun x hne => ?_⟩
    · exact (Memory.read?_write _ _ _ _).trans (if_pos rfl)
    · exact (Memory.read?_write _ _ _ _).trans (if_neg hne.symm)
  · intro i s u t h ht hn
    rw [exec_services h] at ht
    obtain ⟨v, hv, hd⟩ := andThen_eq_next.1 ht
    obtain rfl := done_eq_next.1 hd
    exact (serviceEdge_keeps_ring hv hn :)

/-- Settles O25: what no change touches, what EDGE's does not, and which requests reach the ring. -/
theorem edgeOperationsFrame : Obligations.EdgeOperationsFrame := by
  intro i s t ho h
  obtain ⟨u, r, hu, rfl⟩ := exec_change h
  obtain ⟨hp, hq, hw⟩ := hu.config_kept
  have other : ∀ {l : List (BitVec 4)}, 0x2#4 ∉ l → 0x8#4 ∉ l → i.op ∉ l := by
    intro l h2 h8
    rcases ho with ho | ho <;> rwa [ho]
  refine ⟨hp, hq, hw, ?_, fun h2 => ?_, fun x hx => hu.buf_kept_off_wr hx, fun hn => ?_⟩
  · exact hu.inited_kept_or_op.resolve_right (List.mem_singleton.not.1 (other (by decide) (by decide)))
  · exact hu.edgeEn_kept_or_op.resolve_right (by simp [h2])
  · rcases hu.ring_kept_or_completes with hk | ⟨hs, hx, hv, hc⟩ | hop
    · exact hk
    · obtain ⟨hsp, hsx, hse, -⟩ := servedState_same i s
      exact absurd ⟨_, services_iff.2 ⟨hs, rfl⟩, by rwa [hsx, hsp], by rwa [hsx, hse], by rwa [hsx]⟩ hn
    · exact absurd hop (other (by decide) (by decide))

/-- Settles O26: whatever the sample, the edge leaves index 1, a clear accumulator and a restarted timer. -/
theorem firstEdgeAfterIdleIgnoresElapsed : Obligations.FirstEdgeAfterIdleIgnoresElapsed := by
  rintro d e e' s ⟨hi, hf, he⟩ hx ha hm
  have hedge : ∀ x, exec (.edge d) { s with elapsed := x } = done (s.advance 1 0).restart := fun x =>
    exec_services_of_idle (u := { s with elapsed := x }) ⟨hi, hf, .inl ⟨⟨d, rfl⟩, he, rfl⟩⟩ hx ha hm
  rw [hedge, hedge]

/-- Settles O27, by the case analysis of a change. -/
theorem accumulatorStaysPastTheFrame : Obligations.AccumulatorStaysPastTheFrame := by
  intro i s t h ht
  obtain ⟨u, r, hu, rfl⟩ := exec_change h
  exact hu.acc_kept_past_frame ht

/-- Settles O28, by the case analysis of a change. -/
theorem idxMovesOnlyAsListed : Obligations.IdxMovesOnlyAsListed := by
  intro i s t h
  obtain ⟨u, r, hu, rfl⟩ := exec_change h
  rcases hu.idx_moves with hk | ⟨hi, hx, hv, -, -, ho⟩ | ⟨hi, hx, hv, -, -, ho⟩ | hto | harm
  · exact .inl hk
  · exact .inr (.inl ⟨hi, hx, hv, ho⟩)
  · exact .inr (.inr (.inl ⟨hi, hx, hv, ho⟩))
  · exact .inr (.inr (.inr (.inl hto)))
  · exact .inr (.inr (.inr (.inr harm)))

/-- Settles O29: the first edge reaches index 1, and the rest of the frame shifts the bits in and stores byte 1. -/
theorem frameIsAccepted : Obligations.FrameIsAccepted := by
  intro s n sync gaps ws hl ht hx ha hw hsync hlen hg
  obtain ⟨a, hbits⟩ : ∃ a, a = shiftBits 0 (gaps.map gapBit) := ⟨_, rfl⟩
  have hbody := performs_frameBody (afterEdge_firstEdge (s := s) hl ht) rfl hw hsync hlen hg hbits
  have hrun := ((performs_firstPulse hl ht hx ha n).append hbody) ws
  rw [← List.append_assoc] at hrun
  have ⟨_, hf, _⟩ := ht
  refine ⟨_, hrun, rfl, rfl, hf, rfl, rfl, fun k hk => ?_, rfl, ?_, ?_, fun x hne => ?_⟩
  · exact hbits ▸ shiftBits_gaps_getLsbD hlen 0 hk
  · exact stored_rd (s.frameReceived a) (commandByte a)
  · exact (Memory.read?_write _ _ _ _).trans (if_pos rfl)
  · exact (Memory.read?_write _ _ _ _).trans (if_neg hne.symm)

end Sys2Proof.Machine
end

section
/-! The timeout supervisor (41_timeout.md): the three cases of TICK, silence up to the timeout and through it, and the
edge after it. -/

namespace Sys2Proof.Machine

/-! ### TICK by its cases (41_timeout.md R130, R131) -/

/-- When a TICK acts: past the guards, with the timer running (41_timeout.md R130, R133). -/
def State.timing (s : State) : Prop := s.fault = false ∧ s.inited = true ∧ s.run = true

theorem State.not_timing_iff {s : State} : ¬ s.timing ↔ s.fault = true ∨ s.inited = false ∨ s.run = false := by
  simp [State.timing, imp_iff_not_or]

theorem exec_tick_inert {s : State} (h : ¬ s.timing) (d : Byte) : exec (.tick d) s = done s :=
  exec_inert (i := .tick d) ((State.not_timing_iff.1 h).imp_right fun hn => by simpa [Instr.op] using hn)

section
variable {s : State} (h : s.timing)
include h

theorem exec_tick_counts (he : s.elapsed < s.params.tTimeout) (d : Byte) : exec (.tick d) s = done s.countTick := by
  obtain ⟨hf, hi, hr⟩ := h
  exact exec_of_change (i := .tick d) (.count rfl hf hi hr he)

theorem exec_tick_timesOut (he : s.params.tTimeout ≤ s.elapsed) (d : Byte) : exec (.tick d) s = done s.timeout := by
  obtain ⟨hf, hi, hr⟩ := h
  exact exec_of_change (i := .tick d) (.timeout rfl hf hi hr he)

end

/-! ### Silence (41_timeout.md R132, R135) -/

/-- The state `n` TICKs later when each of them counts. -/
def State.silent (s : State) (n : Nat) : State :=
  { s with elapsed := s.elapsed + BitVec.ofNat 8 n, resp := if n = 0 then s.resp else nullResponse }

theorem State.silent_zero (s : State) : s.silent 0 = s := by simp [State.silent]

theorem State.countTick_silent (s : State) (n : Nat) :
    (s.silent n).countTick.respond nullResponse = s.silent (n + 1) := by
  simp [State.silent, State.countTick, State.respond, BitVec.ofNat_add, BitVec.add_assoc]

section
variable {s : State} (hl : s.params.legal = true) (h : s.timing) (he : s.elapsed ≤ s.params.tTimeout)
include hl h he

/-- Up to the bound, silence only counts. -/
theorem performs_ticks_silent {n : Nat} (hn : n ≤ s.params.tTimeout.toNat - s.elapsed.toNat) :
    performs (Trace.ticks n) s (s.silent n) := by
  induction n with
  | zero =>
    rw [s.silent_zero]
    exact performs_nil s
  | succ n ih =>
    have hlt : s.elapsed + BitVec.ofNat 8 n < s.params.tTimeout := by bv_omega
    have htick : exec (.tick 0) (s.silent n) = .next (s.silent (n + 1)) := by
      rw [← s.countTick_silent]
      exact exec_tick_counts (s := s.silent n) h hlt 0
    rw [Trace.ticks, List.replicate_succ']
    exact (ih (by omega)).append (performs_word hl (decode_tickWord ▸ htick))

/-- One TICK more is the timeout, which forgets how long the silence lasted. -/
theorem performs_ticks_timeout :
    performs (Trace.ticks (s.params.tTimeout.toNat - s.elapsed.toNat + 1)) s (s.timeout.respond nullResponse) := by
  have hge : s.params.tTimeout ≤ s.elapsed + BitVec.ofNat 8 (s.params.tTimeout.toNat - s.elapsed.toNat) := by bv_omega
  have htick : exec (.tick 0) (s.silent (s.params.tTimeout.toNat - s.elapsed.toNat)) = done s.timeout :=
    exec_tick_timesOut (s := s.silent _) h hge 0
  rw [Trace.ticks, List.replicate_succ']
  exact (performs_ticks_silent hl h he le_rfl).append (performs_word hl (decode_tickWord ▸ htick))

end

/-- A run of a stretch of TICKs, one step per TICK. -/
theorem performs.run_ticks {n : Nat} {s t : State} (h : performs (Trace.ticks n) s t) (ws : List RequestWord) :
    Host.Core.run Sys2Proof.core n (s.setRequests (Trace.ticks n ++ ws)) = .next (t.setRequests ws) := by
  have hrun := h ws
  rwa [Trace.ticks, List.length_replicate] at hrun

/-! ### The edge after the timeout (41_timeout.md R134) -/

/-- No window is as wide as the smallest timeout (40_decoder.md R104, 00_scope.md R8). -/
theorem window_of_tTimeout {p : Params} (hl : p.legal = true) (i : Byte) : window i p.tTimeout = false := by
  obtain ⟨-, htimeout, -⟩ := (Params.legal_iff _).1 hl
  rw [← Bool.not_eq_true, window_iff]
  omega

/-- An edge serviced with the sample at the bound resyncs, as from idle (41_timeout.md R132). -/
theorem exec_edge_at_tTimeout {s : State} (hl : s.params.legal = true) (ht : s.takesEdges)
    (he : s.elapsed = s.params.tTimeout) (hx : s.idx ≠ s.params.idxMax) (d : Byte) :
    exec (.edge d) s = done s.resync.restart := by
  obtain ⟨hi, hf, hen⟩ := ht
  have hservice : services (.edge d) s s := ⟨hi, hf, .inl ⟨⟨d, rfl⟩, hen, rfl⟩⟩
  exact exec_services_resync hservice hx (by rw [he]; exact window_of_tTimeout hl _)

/-! ### The obligations -/

/-- Settles O31, case by case. -/
theorem tickCountsOrTimesOut : Obligations.TickCountsOrTimesOut := by
  refine ⟨decode_tickWord, fun d s => ⟨fun hn => ?_, fun hf hi hr he => ?_, fun hf hi hr he => ?_⟩⟩
  · exact exec_tick_inert (State.not_timing_iff.2 hn) d
  · exact exec_tick_counts ⟨hf, hi, hr⟩ he d
  · exact exec_tick_timesOut ⟨hf, hi, hr⟩ he d

/-- Settles O32: which case a TICK is in does not depend on the enable, and no case writes beyond the decoder and timer
registers and the response. -/
theorem tickGatingAndFrame : Obligations.TickGatingAndFrame := by
  intro d s
  by_cases h : s.timing
  · have ⟨_, _, hr⟩ := h
    have stopped : ∀ {P : Prop}, s.run = false → P := fun hn => absurd (hr.symm.trans hn) (by decide)
    by_cases he : s.elapsed < s.params.tTimeout
    · exact ⟨_, exec_tick_counts h he d, stopped, rfl, fun b => exec_tick_counts (s := { s with edgeEn := b }) h he d⟩
    · have hge := BitVec.not_lt.1 he
      exact ⟨_, exec_tick_timesOut h hge d, stopped, rfl,
        fun b => exec_tick_timesOut (s := { s with edgeEn := b }) h hge d⟩
  · exact ⟨_, exec_tick_inert h d, fun _ => rfl, rfl, fun b => exec_tick_inert (s := { s with edgeEn := b }) h d⟩

/-- Settles O33: silence counts up to the bound, and one TICK more is the timeout. -/
theorem silenceReachesIdle : Obligations.SilenceReachesIdle := by
  intro s ws hl hi hf hr he
  have h : s.timing := ⟨hf, hi, hr⟩
  constructor
  · intro k hk hle
    have hrun := (performs_ticks_silent hl h he hle).run_ticks ws
    rwa [State.silent, if_neg (by omega)] at hrun
  · have hcount : s.params.tTimeout.toNat + 1 - s.elapsed.toNat = s.params.tTimeout.toNat - s.elapsed.toNat + 1 := by
      bv_omega
    rw [hcount]
    exact (performs_ticks_timeout hl h he).run_ticks ws

/-- Settles O34: the edge leads to index 1 with a clear accumulator both from the idle state the timeout leaves and, by a
resync, from the state before it. -/
theorem timeoutIsInvisibleAwayFromIdxMax : Obligations.TimeoutIsInvisibleAwayFromIdxMax := by
  intro d e s t hl ht hr he hx htick
  have ⟨hi, hf, _⟩ := ht
  rw [exec_tick_timesOut ⟨hf, hi, hr⟩ (he ▸ BitVec.le_refl _), done_eq_next] at htick
  subst htick
  calc exec (.edge e) (s.timeout.respond nullResponse)
      = done s.resync.restart := exec_firstEdge (s := s.timeout.respond nullResponse) hl ht rfl rfl e
    _ = exec (.edge e) s := (exec_edge_at_tTimeout hl ht he (BitVec.ne_of_lt hx) e).symm

end Sys2Proof.Machine
end

section
/-! The ring buffer (42_ringbuffer.md): its four operations, and the unread commands as a bounded drop-oldest queue. -/

namespace Sys2Proof.Machine

/-! ### The operations of the ring -/

/-- With one change known, a request has the one next state. -/
theorem Change.next_eq {i : Instr} {s t u : State} (hc : Change i s u) (h : exec i s = .next t) :
    t = u.respond (answer i s) := by
  rw [exec_of_change hc] at h
  exact (Host.Outcome.next.inj h).symm

/-- A GET takes nothing while faulted or from an empty ring (42_ringbuffer.md R141). -/
theorem inert_get {i : Instr} {s : State} (ho : i.op = 0x4#4) (h : s.fault = true ∨ s.wr = s.rd) : inert i s :=
  h.imp_right fun he => by simp [ho, he]

/-- PUT's code is refused on the external port, and frozen while faulted (42_ringbuffer.md R147, log entry 7). -/
theorem inert_put {i : Instr} {s : State} (ho : i.op = 0x9#4) (h : s.port = .external ∨ s.fault = true) : inert i s :=
  h.symm.imp_right fun hp => by simp [ho, hp]

theorem exec_put_external (b : Byte) {s : State} (hp : s.port = .external) :
    exec (.put b) s = .next (s.respond reservedResponse) := by
  rw [exec_inert (inert_put rfl (.inl hp))]
  simp [answer, hp]

theorem exec_put_ring (b : Byte) {s : State} (hp : s.port = .ring) (hf : s.fault = false)
    (hw : s.wr < s.params.slots) : exec (.put b) s = .next ((stored s b).respond nullResponse) := by
  rw [exec_of_change (.put b rfl hf hp hw)]
  simp [answer, hp]

theorem exec_get_none (d : Byte) {s : State} (h : s.fault = true ∨ s.wr = s.rd) :
    exec (.get d) s = .next (s.respond nullResponse) := by
  rw [exec_inert (inert_get rfl h), answer_get_none d h]

theorem exec_get_some (d : Byte) {s : State} (hf : s.fault = false) (he : s.wr ≠ s.rd) (hr : s.rd < s.params.slots) :
    exec (.get d) s = .next (s.advanceRd.respond (answerByte (Memory.read s.buf s.rd))) := by
  rw [exec_of_change (.take rfl hf he hr), answer_get_some d hf he]

theorem answerTruth_decide (p : Prop) [Decidable p] :
    answerTruth (decide p) = { err := false, valid := true, data := if p then 0x01 else 0x00 } := by
  by_cases hp : p
  · simp [answerTruth, answerByte, hp]
  · simp [answerTruth, answerByte, hp]

/-- On the external port only a serviced edge stores or moves the write cursor, INIT's clearing apart
(42_ringbuffer.md R147). -/
theorem Change.producer_kept_of_not_serves {i : Instr} {s u : State} (h : Change i s u) (hp : s.port = .external)
    (hn : ¬ serves i s) : u.buf = s.buf ∧ (i.op ≠ 0x1#4 → u.wr = s.wr) := by
  cases h with
  | arm ho => exact ⟨rfl, fun h1 => absurd ho h1⟩
  | put _ _ _ hring => exact absurd (hp.symm.trans hring) (by decide)
  | overflow hv | resync hv | advance hv | complete hv => exact absurd hv hn
  | _ => exact ⟨rfl, fun _ => rfl⟩

/-! ### The unread commands as a queue -/

/-- The unread commands are what the ring's registers and the number of slots make them. -/
theorem unread_congr {s t : State} (hp : t.params = s.params) (h : t.buf = s.buf ∧ t.wr = s.wr ∧ t.rd = s.rd) :
    unread t = unread s := by
  obtain ⟨hb, hw, hr⟩ := h
  simp only [unread, unreadCount, unreadSlot, hp, hb, hw, hr]

/-- Counted from the advanced read cursor, each slot is one place nearer. -/
theorem unreadSlot_advanceRd (s : State) (k : Nat) : unreadSlot s.advanceRd k = unreadSlot s (k + 1) := by
  rw [unreadSlot, unreadSlot, State.advanceRd_rd, State.advanceRd_params, nextSlot, Nat.mod_add_mod, Nat.add_right_comm,
    Nat.add_assoc]

/-- PUT on a full ring is the eviction, then PUT (42_ringbuffer.md R140). -/
theorem stored_of_full {s : State} (hf : isFull s = true) (hn : ¬ isFull s.advanceRd = true) (b : Byte) :
    stored s b = stored s.advanceRd b := by
  simp only [stored, hf, hn, if_true]
  rfl

/-- A full ring of two slots or more has something unread. -/
theorem wr_ne_rd_of_full {s : State} (hw : s.wr < s.params.slots) (h2 : 2 ≤ s.params.slots) (hf : isFull s = true) :
    s.wr ≠ s.rd := by
  rw [isFull_iff, ← nextSlot, nextSlot_eq hw] at hf
  split_ifs at hf <;> omega

/-- The eviction from a full ring leaves a slot to spare. -/
theorem not_isFull_advanceRd {s : State} (hr : s.rd < s.params.slots) (h2 : 2 ≤ s.params.slots) (hf : isFull s = true) :
    ¬ isFull s.advanceRd = true := by
  rw [isFull_iff, ← nextSlot] at hf ⊢
  rw [State.advanceRd_wr, State.advanceRd_rd, State.advanceRd_params, hf, nextSlot_eq hr]
  split_ifs <;> omega

section
variable {s : State} (hw : s.wr < s.params.slots) (hr : s.rd < s.params.slots)
include hw hr

theorem unread_eq_nil_iff : unread s = [] ↔ s.wr = s.rd := by
  rw [← List.length_eq_zero_iff, length_unread, ← isEmpty_iff_unreadCount hw hr, isEmpty_iff]

theorem unreadCount_advanceRd (he : s.wr ≠ s.rd) : unreadCount s = unreadCount s.advanceRd + 1 := by
  rw [unreadCount_eq hw hr, unreadCount_eq (s := s.advanceRd) hw (nextSlot_lt _ (by omega)), State.advanceRd_wr,
    State.advanceRd_rd, State.advanceRd_params, nextSlot_eq hr]
  split_ifs <;> omega

/-- The read cursor's slot holds the head of the queue, and advancing the cursor leaves the rest, in order. -/
theorem unread_eq_cons (he : s.wr ≠ s.rd) : unread s = Memory.read? s.buf s.rd :: unread s.advanceRd := by
  have hhead : unreadSlot s 0 = s.rd := Nat.mod_eq_of_lt hr
  rw [unread, unreadCount_advanceRd hw hr he, List.range_succ_eq_map, List.map_cons, List.map_map, hhead]
  refine congrArg _ (List.map_congr_left fun k _ => ?_)
  rw [unreadSlot_advanceRd]
  rfl

/-- The slot after the last unread command is the write cursor's. -/
theorem unreadSlot_unreadCount : unreadSlot s (unreadCount s) = s.wr := by
  rw [unreadSlot, unreadCount_eq hw hr, mod_eq_sub_or (by split_ifs <;> omega)]
  split_ifs <;> omega

/-- The write cursor's slot holds no unread command (10_state.md R30). -/
theorem not_holdsUnread_wr : ¬ holdsUnread s s.wr := by
  rw [holdsUnread_iff hw hr]
  omega

theorem unreadCount_stored (hn : ¬ isFull s = true) (b : Byte) : unreadCount (stored s b) = unreadCount s + 1 := by
  rw [isFull_iff, ← nextSlot] at hn
  rw [unreadCount_eq (s := stored s b) (nextSlot_lt _ (by omega)) (stored_rd_lt hr b), unreadCount_eq hw hr, stored_wr,
    stored_rd, stored_params, if_neg hn]
  rw [nextSlot_eq hw] at hn ⊢
  split_ifs at hn ⊢ <;> omega

/-- While a slot is left, PUT appends its byte: it stores into the slot after the last unread command, and into none that
holds one. -/
theorem unread_stored_of_not_full (hn : ¬ isFull s = true) (b : Byte) :
    unread (stored s b) = unread s ++ [some b] := by
  have hslot : ∀ k, unreadSlot (stored s b) k = unreadSlot s k := fun k => by
    rw [unreadSlot, stored_rd, stored_params, if_neg (by rwa [isFull_iff] at hn)]
    rfl
  rw [unread, unreadCount_stored hw hr hn, List.range_succ, List.map_append, List.map_singleton]
  simp only [hslot, stored_buf, Memory.read?_write, unreadSlot_unreadCount hw hr, if_true]
  refine congrArg (· ++ _) (List.map_congr_left fun k hk => if_neg fun hx => ?_)
  exact not_holdsUnread_wr hw hr ⟨k, List.mem_range.1 hk, hx.symm⟩

/-- PUT on the queue: append, and drop the oldest when there is no room (42_ringbuffer.md R145). -/
theorem unread_stored (h2 : 2 ≤ s.params.slots) (b : Byte) :
    unread (stored s b) =
      (if unreadCount s = s.params.slots - 1 then (unread s).tail else unread s) ++ [some b] := by
  rw [if_congr (isFull_iff_unreadCount hw hr).symm rfl rfl]
  split
  · next hf =>
    have hn := not_isFull_advanceRd hr h2 hf
    rw [stored_of_full hf hn, unread_stored_of_not_full (s := s.advanceRd) hw (nextSlot_lt _ (by omega)) hn,
      unread_eq_cons hw hr (wr_ne_rd_of_full hw h2 hf), List.tail_cons]
  · next hn => exact unread_stored_of_not_full hw hr hn b

end

/-! ### The obligations -/

/-- Settles O36: the code's answer on the external port, and the case analysis of a change. -/
theorem externalPutIsRefused : Obligations.ExternalPutIsRefused := by
  refine ⟨fun b s hp => exec_put_external b hp, fun i s t hp h hn => ?_⟩
  obtain ⟨u, r, hu, rfl⟩ := exec_change h
  rw [exists_services_iff] at hn
  exact hu.producer_kept_of_not_serves hp hn

/-- Settles O41: PUT and a completion pulse are the same store, the pulse at a state with the same ring. -/
theorem pushEnqueuesDroppingTheOldest : Obligations.PushEnqueuesDroppingTheOldest := by
  refine fun s h2 hw hr hf => ⟨fun b hp => ⟨_, exec_put_ring b hp hf hw, unread_stored hw hr h2 b⟩, ?_⟩
  intro d hi he hx hv hc
  have hserves : services (.edge d) s s := ⟨hi, hf, .inl ⟨⟨d, rfl⟩, he, rfl⟩⟩
  refine ⟨_, exec_services_complete hserves hx hv hc hw, ?_⟩
  rw [completed_eq_stored]
  exact unread_stored (s := (s.advance _ _).restart) hw hr h2 _

/-- Settles O42: the queue is empty exactly when the cursors are equal, and else the read cursor is at its head. -/
theorem getDequeuesTheOldest : Obligations.GetDequeuesTheOldest := by
  refine fun d s _ hw hr hf => ⟨fun hnil => ?_, fun v vs hcons => ?_⟩
  · exact ⟨_, exec_get_none d (.inr ((unread_eq_nil_iff hw hr).1 hnil)), hnil, rfl⟩
  · have he : s.wr ≠ s.rd := fun he => by simp [(unread_eq_nil_iff hw hr).2 he] at hcons
    rw [unread_eq_cons hw hr he, List.cons.injEq] at hcons
    obtain ⟨rfl, rfl⟩ := hcons
    exact ⟨_, exec_get_some d hf he hr, rfl, rfl, rfl, fun b hb => Memory.read_of_read? hb⟩

/-- Settles O43: the ring is reached by completion pulses, INIT, GET and PUT alone, and each of those is inert, or a fault
entry, in the forms listed; the first INIT makes the cursors equal. -/
theorem otherRequestsKeepTheUnreadCommands : Obligations.OtherRequestsKeepTheUnreadCommands := by
  intro i s t h
  have of_inert : inert i s → unread t = unread s := fun hn => by rw [(Change.nothing hn).next_eq h]; rfl
  refine ⟨fun ho => ?_, fun ho hn => ?_, fun ho hn => of_inert (inert_get ho hn), fun ho hn => of_inert (inert_put ho hn),
    fun ho hn => ?_, fun ho hi hf h2 => ?_⟩
  · obtain ⟨u, r, hu, rfl⟩ := exec_change h
    obtain ⟨hp, -⟩ := hu.config_kept
    rcases hu.ring_kept_or_completes with hk | ⟨hs, -⟩ | hop
    · exact unread_congr hp hk
    · exact absurd (hs.op_mem (by simp) (by simp)) ho
    · exact absurd (List.Sublist.subset (by decide) hop) ho
  · obtain ⟨hp, -, -, -, -, -, hring⟩ := edgeOperationsFrame i s t ho h
    exact unread_congr hp (hring hn)
  · by_cases hf : s.fault = true
    · exact of_inert (.inl hf)
    · rw [(Change.doubleInit ho (by simpa using hf) (hn.resolve_right hf)).next_eq h]
      rfl
  · rw [(Change.arm ho hf hi).next_eq h]
    have hpos : 0 < s.params.slots := by omega
    exact (unread_eq_nil_iff (s := s.arm.respond _) hpos hpos).2 rfl

/-- Settles O35: PUT's next state, and storage read after the write. -/
theorem putStoresAtTheWriteCursor : Obligations.PutStoresAtTheWriteCursor := by
  refine fun b s hp hf hw => ⟨_, exec_put_ring b hp hf hw, ?_, ?_, fun x hx => ?_⟩
  · exact congrArg (fun r => { stored s b with rd := r, resp := nullResponse }) (stored_rd s b)
  · exact (Memory.read?_write _ _ _ _).trans (if_pos rfl)
  · exact (Memory.read?_write _ _ _ _).trans (if_neg hx.symm)

/-- Settles O37: GET's two forms. -/
theorem getTakesTheOldestOrNone : Obligations.GetTakesTheOldestOrNone := by
  refine ⟨decode_getWord, fun d s => ⟨exec_get_none d, fun hf he hr => ?_⟩⟩
  exact ⟨_, exec_get_some d hf he hr, fun b hb => Memory.read_of_read? hb⟩

/-- Settles O39: each predicate is the decision of its equation on the cursors. -/
theorem emptyAndFullArePurePredicates : Obligations.EmptyAndFullArePurePredicates := by
  refine ⟨decode_encode (.empty 0), decode_encode (.full 0), fun d s => ⟨?_, ?_⟩⟩
  · rw [← answerTruth_decide (s.wr = s.rd)]; rfl
  · rw [← answerTruth_decide ((s.wr + 1) % s.params.slots = s.rd)]; rfl

end Sys2Proof.Machine
end

section
/-! The control operations (43_control.md): INIT, EDGE_DIS, EDGE_ENA, NOP and the reserved codes, the guarded read, and
the block before INIT. -/

namespace Sys2Proof.Machine

/-! ### The guards -/

/-- EDGE, EDGE_DIS and EDGE_ENA do nothing while faulted or before INIT (00_scope.md R12). -/
theorem inert_of_guarded {i : Instr} {s : State} (ho : i.op ∈ [0x2#4, 0x7#4, 0x8#4])
    (h : s.fault = true ∨ s.inited = false) : inert i s :=
  h.imp_right fun hi => by
    simp only [List.mem_cons, List.not_mem_nil, or_false] at ho
    rcases ho with ho | ho | ho <;> simp [ho, hi]

/-- Before INIT, with the cursors equal, everything on the external port but INIT is inert (43_control.md R166). -/
theorem inert_before_init {i : Instr} {s : State} (hp : s.port = .external) (hi : s.inited = false) (he : s.wr = s.rd)
    (ho : i.op ≠ 0x1#4) : inert i s :=
  .inr ⟨ho, fun _ => hi, fun _ => .inl hi, fun _ => he, fun _ => hp⟩

/-! ### The edge enable -/

theorem decode_edgeDisWord : decode 0x700#12 = .edgeDis 0 := decode_encode (.edgeDis 0)

theorem decode_edgeEnaWord : decode 0x800#12 = .edgeEna 0 := decode_encode (.edgeEna 0)

section
variable {s : State} (hf : s.fault = false) (hi : s.inited = true)
include hf hi

theorem exec_edgeDis_disables (d : Byte) : exec (.edgeDis d) s = .next ((s.setEdgeEn false).respond nullResponse) :=
  exec_of_change (.disable rfl hf hi)

theorem exec_edgeEna_enables (hp : s.edgePend = false) (d : Byte) :
    exec (.edgeEna d) s = .next ((s.setEdgeEn true).respond nullResponse) :=
  exec_of_change (.enable rfl hf hi hp)

/-- The edge that EDGE_ENA releases and an EDGE at the state with the enable set and the latch cleared are served at the
same state. -/
theorem exec_edgeEna_eq_edge (hp : s.edgePend = true) (d e : Byte) :
    exec (.edgeEna d) s = exec (.edge e) (s.setEdgeEn true).clearPend := by
  have released : services (.edgeEna d) s (s.setEdgeEn true).clearPend := ⟨hi, hf, .inr ⟨⟨d, rfl⟩, hp, rfl⟩⟩
  have presented : services (.edge e) (s.setEdgeEn true).clearPend (s.setEdgeEn true).clearPend :=
    ⟨hi, hf, .inl ⟨⟨e, rfl⟩, rfl, rfl⟩⟩
  rw [exec_services released, exec_services presented]

end

theorem State.setEdgeEn_of_eq {s : State} {b : Bool} (h : s.edgeEn = b) : s.setEdgeEn b = s := by subst h; rfl

theorem State.setEdgeEn_setEdgeEn (s : State) (b c : Bool) : (s.setEdgeEn b).setEdgeEn c = s.setEdgeEn c := rfl

theorem State.setRequests_of_eq {s : State} {ws : List RequestWord} (h : s.requests = ws) : s.setRequests ws = s := by
  subst h; rfl

/-! ### GET inside the window (43_control.md R165) -/

section
variable {d : Byte} {s t : State} (h : exec (.get d) s = .next t)
include h

/-- What a GET that completes can do: find nothing, or take the oldest command. -/
theorem exec_get_cases :
    ((s.fault = true ∨ s.wr = s.rd) ∧ t = s.respond nullResponse) ∨
    (s.fault = false ∧ s.wr ≠ s.rd ∧ s.rd < s.params.slots ∧
      t = s.advanceRd.respond (answerByte (Memory.read s.buf s.rd))) := by
  by_cases hn : s.fault = true ∨ s.wr = s.rd
  · rw [exec_get_none d hn, Host.Outcome.next.injEq] at h
    exact .inl ⟨hn, h.symm⟩
  · obtain ⟨hf, he⟩ := not_or.1 hn
    rw [Bool.not_eq_true] at hf
    rcases Nat.lt_or_ge s.rd s.params.slots with hr | hr
    · rw [exec_get_some d hf he hr, Host.Outcome.next.injEq] at h
      exact .inr ⟨hf, he, hr, h.symm⟩
    · simp [exec_get_outside d hf he hr] at h

/-- A GET leaves the configuration and the control registers as they were. -/
theorem exec_get_keeps_control :
    t.params = s.params ∧ t.requests = s.requests ∧ t.inited = s.inited ∧ t.fault = s.fault ∧ t.edgeEn = s.edgeEn ∧
      t.edgePend = s.edgePend := by
  rcases exec_get_cases h with ⟨-, rfl⟩ | ⟨-, -, -, rfl⟩
  · exact ⟨rfl, rfl, rfl, rfl, rfl, rfl⟩
  · exact ⟨rfl, rfl, rfl, rfl, rfl, rfl⟩

/-- A GET takes no notice of the edge enable and of the response before it. -/
theorem exec_get_setEdgeEn (b : Bool) (r : Response) :
    exec (.get d) ((s.setEdgeEn b).respond r) = .next (t.setEdgeEn b) := by
  rcases exec_get_cases h with ⟨hn, rfl⟩ | ⟨hf, he, hr, rfl⟩
  · exact exec_get_none (s := (s.setEdgeEn b).respond r) d hn
  · exact exec_get_some (s := (s.setEdgeEn b).respond r) d hf he hr

end

/-- The guarded read with no edge in its window leaves what its GET leaves, the response apart. -/
theorem performs_poll {s t : State} (hl : s.params.legal = true) (ht : s.takesEdges) (hp : s.edgePend = false)
    (h : exec (.get 0) s = .next t) : performs Trace.poll s (t.respond nullResponse) := by
  obtain ⟨hi, hf, he⟩ := ht
  obtain ⟨hparams, -, hinited, hfault, hen, hpend⟩ := exec_get_keeps_control h
  have disable := performs_word hl (decode_edgeDisWord ▸ exec_edgeDis_disables hf hi 0)
  have get := performs_word (s := (s.setEdgeEn false).respond nullResponse) hl
    (decode_getWord ▸ exec_get_setEdgeEn h false nullResponse)
  have hena := exec_edgeEna_enables (s := t.setEdgeEn false) (hfault.trans hf) (hinited.trans hi) (hpend.trans hp) 0
  rw [State.setEdgeEn_setEdgeEn, State.setEdgeEn_of_eq (hen.trans he)] at hena
  have enable := performs_word (s := t.setEdgeEn false) (hparams ▸ hl) (decode_edgeEnaWord ▸ hena)
  exact (disable.append get).append enable

/-! ### The answers before INIT (43_control.md R166) -/

/-- With both cursors at their reset value the ring is empty and not full. -/
theorem isEmpty_and_not_isFull_at_zero {s : State} (hn : 2 ≤ s.params.slots) (hw : s.wr = 0) (hr : s.rd = 0) :
    isEmpty s = true ∧ isFull s = false := by
  have hnext : nextSlot s.params.slots 0 = 1 := Nat.mod_eq_of_lt hn
  simp [isEmpty, isFull, hw, hr, hnext]

/-! ### The obligations -/

/-- Settles O18: the three requests in turn, from the state in which the trace is what follows them. -/
theorem guardedReadLeavesWhatGetLeaves : Obligations.GuardedReadLeavesWhatGetLeaves := by
  intro s t ws hl ht hp h
  obtain ⟨-, hq, -⟩ := exec_get_keeps_control h
  have hrun := performs_poll (s := s.setRequests ws) hl ht hp h ws
  rwa [State.setRequests_of_eq (s := t.respond nullResponse) hq] at hrun

/-- Settles O49: INIT arms the block; every other request is inert, and its answer is the table's for an empty ring. -/
theorem inertBeforeInit : Obligations.InertBeforeInit := by
  intro i s hl hp hi hw hr
  have he : s.wr = s.rd := hw.trans hr.symm
  obtain ⟨hn, -, -⟩ := (Params.legal_iff _).1 hl
  obtain ⟨hempty, hfull⟩ := isEmpty_and_not_isFull_at_zero hn hw hr
  refine ⟨fun ho hf => ⟨_, exec_of_change (.arm ho hf hi), rfl, rfl, rfl⟩, fun ho => ?_⟩
  refine ⟨answer i s, exec_inert (inert_before_init hp hi he ho), ?_, ?_, ?_, ?_⟩
  · intro hnull
    by_cases h4 : i.op = 0x4#4
    · obtain ⟨d, rfl⟩ := op_eq_get.1 h4
      rw [answer_get_none d (.inr he), responseWord_null]
    · have silent : i.op ∈ [0x0#4, 0x1#4, 0x2#4, 0x3#4, 0x7#4, 0x8#4] := by simp_all
      rw [answer_silent s silent, responseWord_null]
  · intro h5
    obtain ⟨d, rfl⟩ := op_eq_empty.1 h5
    rw [answer, hempty, responseWord_answerTruth, if_pos rfl]
  · intro h6
    obtain ⟨d, rfl⟩ := op_eq_full.1 h6
    rw [answer, hfull, responseWord_answerTruth, if_neg (by decide)]
  · intro h9
    rw [answer_reserved hp h9, responseWord_reserved]

/-- Settles O12: NOP is inert in every state. -/
theorem nopChangesNothing : Obligations.NopChangesNothing :=
  ⟨decode_idleWord, fun _ _ => exec_inert (.inr (by simp [Instr.op]))⟩

/-- Settles O13: each reserved code is the one operation `reservedCode`, and so is code 0x9 on the external port. -/
theorem reservedCodesAnswerErr : Obligations.ReservedCodesAnswerErr := by
  rintro d s t rfl
  exact ⟨responseWord_reserved, rfl, rfl, rfl, rfl, rfl, rfl, exec_put_external d⟩

/-- Settles O14: frozen while faulted, a fault entry the second time, and the arming the first time. -/
theorem initArmsOnceThenFaults : Obligations.InitArmsOnceThenFaults := by
  refine ⟨decode_encode (.init 0), fun d s => ⟨fun hf => ?_, fun hf hi => ?_, fun hf hi => ?_⟩⟩
  · exact exec_inert (i := .init d) (.inl hf)
  · exact exec_of_change (i := .init d) (.doubleInit rfl hf hi)
  · exact exec_of_change (i := .init d) (.arm rfl hf hi)

/-- Settles O16: the guards, and the one write past them. -/
theorem edgeDisDisables : Obligations.EdgeDisDisables := by
  refine ⟨decode_edgeDisWord, fun d s => ⟨fun hn => ?_, fun hf hi => exec_edgeDis_disables hf hi d⟩⟩
  exact exec_inert (i := .edgeDis d) (inert_of_guarded (by simp [Instr.op]) hn)

/-- Settles O17: the guards, the one write with nothing latched, and the released edge. -/
theorem edgeEnaServicesALatchedEdge : Obligations.EdgeEnaServicesALatchedEdge := by
  refine ⟨decode_edgeEnaWord, fun d e s => ⟨fun hn => ?_, fun hf hi hp => ?_, fun hf hi hp => ?_⟩⟩
  · exact exec_inert (i := .edgeEna d) (inert_of_guarded (by simp [Instr.op]) hn)
  · exact exec_edgeEna_enables hf hi hp d
  · exact exec_edgeEna_eq_edge hf hi hp d e

end Sys2Proof.Machine
end

section
/-! The fatal faults (60_exceptions.md R171 to R174): where they are raised, what their entry writes, and the frozen state
after it. -/

namespace Sys2Proof.Machine

/-! ### Fault entry -/

/-- The two changes that raise a fault (60_exceptions.md R171). -/
theorem Change.unfaulted_or_fault_entry {i : Instr} {s u : State} (h : Change i s u) (hf : s.fault = false) :
    u.fault = false ∨
    (i.op = 0x1#4 ∧ s.inited = true ∧ u = s.raiseFault fcodeDoubleInit) ∨
    (serves i s ∧ s.idx = s.params.idxMax ∧ u = (servedState i s).raiseFault fcodeIdxOverflow) := by
  obtain ⟨-, -, -, hserved, -⟩ := servedState_frame i s
  cases h with
  | doubleInit ho _ hi => exact .inr (.inl ⟨ho, hi, rfl⟩)
  | overflow hs hx => exact .inr (.inr ⟨hs, hx, rfl⟩)
  | resync | advance | complete => exact .inl (hserved.trans hf)
  | _ => exact .inl hf

/-- The same for a request: a request that raises a fault is a second INIT or a serviced edge at `IDX_MAX`. -/
theorem exec_fault_entry {i : Instr} {s t : State} (hf : s.fault = false) (h : exec i s = .next t)
    (ht : t.fault = true) :
    (i.op = 0x1#4 ∧ s.inited = true ∧ t = (s.raiseFault fcodeDoubleInit).respond nullResponse) ∨
    (serves i s ∧ s.idx = s.params.idxMax ∧
      t = ((servedState i s).raiseFault fcodeIdxOverflow).respond nullResponse) := by
  obtain ⟨u, hu, rfl⟩ := exec_next_iff.1 h
  rcases hu.unfaulted_or_fault_entry hf with hn | ⟨ho, hi, rfl⟩ | ⟨hs, hx, rfl⟩
  · exact absurd (hn.symm.trans ht) (by decide)
  · exact .inl ⟨ho, hi, by rw [answer_silent s (by simp [ho])]⟩
  · exact .inr ⟨hs, hx, by rw [answer_silent s (hs.op_mem (by simp) (by simp))]⟩

/-- INIT services no edge. -/
theorem serves.not_init {i : Instr} {s : State} (h : serves i s) : i.op ≠ 0x1#4 := by
  rcases h.op with ho | ho <;> simp [ho]

/-- The state of service as the one record that covers both EDGE and EDGE_ENA. -/
theorem servedState_eq (i : Instr) (s : State) :
    servedState i s =
      { s with
        edgeEn := if i.op = 0x8#4 then true else s.edgeEn
        edgePend := if i.op = 0x8#4 then false else s.edgePend } := by
  by_cases h8 : i.op = 0x8#4
  · simp only [servedState, h8, if_true]; rfl
  · simp only [servedState, h8, if_false]

/-! ### The frozen state -/

/-- The requests that answer nothing, with a GET that finds no command among them. -/
theorem answer_silent_or_none {i : Instr} {s : State} (hn : s.fault = true ∨ s.wr = s.rd)
    (ho : i.op ∈ [0x0#4, 0x1#4, 0x2#4, 0x3#4, 0x4#4, 0x7#4, 0x8#4]) : answer i s = nullResponse := by
  cases i with
  | get d => exact answer_get_none d hn
  | nop _ | init _ | edge _ | tick _ | edgeDis _ | edgeEna _ => rfl
  | _ => exact absurd ho (by simp [Instr.op])

/-- The codes reserved on both ports. -/
theorem answer_reserved_code {i : Instr} (s : State) (h : 0xA#4 ≤ i.op) : answer i s = reservedResponse := by
  cases i with
  | reservedA _ | reservedB _ | reservedC _ | reservedD _ | reservedE _ | reservedF _ => rfl
  | _ => exact absurd h (by simp [Instr.op])

/-- INIT is the only writer of `inited`, and it sets it (10_state.md R27). -/
theorem Change.inited_sticky {i : Instr} {s u : State} (h : Change i s u) (hi : s.inited = true) :
    u.inited = true := by
  obtain ⟨-, -, hserved, -⟩ := servedState_frame i s
  cases h with
  | arm => rfl
  | overflow | resync | advance | complete => exact hserved.trans hi
  | _ => exact hi

/-! ### The obligations -/

/-- Settles O45: the two fault entries, in one direction by the case analysis of a change, in the other because each of
them is the one next state of its request. -/
theorem faultsAreRaisedExactlyWhereNamed : Obligations.FaultsAreRaisedExactlyWhereNamed := by
  intro i s t hf h
  refine ⟨⟨fun ht => ?_, ?_⟩, fun ht ho => ?_, fun ht ho => ?_⟩
  · rcases exec_fault_entry hf h ht with ⟨ho, hi, -⟩ | ⟨⟨-, hi, hedge⟩, hx, -⟩
    · exact .inl ⟨ho, hi⟩
    · exact .inr ⟨hi, hx, hedge⟩
  · rintro (⟨ho, hi⟩ | ⟨hi, hx, hedge⟩)
    · rw [(Change.doubleInit ho hf hi).next_eq h]; rfl
    · rw [(Change.overflow ⟨hf, hi, hedge⟩ hx).next_eq h]; rfl
  · rcases exec_fault_entry hf h ht with ⟨-, -, rfl⟩ | ⟨hs, -⟩
    · rfl
    · exact absurd ho hs.not_init
  · rcases exec_fault_entry hf h ht with ⟨ho', -⟩ | ⟨-, hx, rfl⟩
    · exact absurd ho' ho
    · obtain ⟨-, hidx, -⟩ := servedState_same i s
      exact ⟨rfl, hidx.trans hx⟩

/-- Settles O46: DOUBLE_INIT is entered at the state itself, IDX_OVERFLOW at the state of service. -/
theorem faultEntryIsPrecise : Obligations.FaultEntryIsPrecise := by
  intro i s t hf h ht
  rcases exec_fault_entry hf h ht with ⟨ho, -, rfl⟩ | ⟨-, -, rfl⟩
  · rw [ho]; rfl
  · rw [servedState_eq]; rfl

/-- Settles O47: while faulted every request is inert, and its answer is the table's. -/
theorem faultFreezesTheState : Obligations.FaultFreezesTheState := by
  intro i s hf
  refine ⟨answer i s, exec_inert (.inl hf), fun ho => ?_, fun ho => ?_, fun ho => ?_, fun ho => ?_⟩
  · rw [answer_silent_or_none (.inl hf) ho, responseWord_null]
  · obtain ⟨d, rfl⟩ := op_eq_empty.1 ho
    simpa [answer] using responseWord_answerTruth (isEmpty s)
  · obtain ⟨d, rfl⟩ := op_eq_full.1 ho
    simpa [answer] using responseWord_answerTruth (isFull s)
  · rw [answer_reserved_code s ho, responseWord_reserved]

/-- Settles O48: a faulted state is frozen, and no change clears `inited`. -/
theorem faultAndInitedAreSticky : Obligations.FaultAndInitedAreSticky := by
  intro i s t h
  refine ⟨fun hf => ?_, fun hi => ?_⟩
  · rw [(Change.nothing (.inl hf)).next_eq h]
    exact ⟨hf, rfl⟩
  · obtain ⟨u, r, hu, rfl⟩ := exec_change h
    exact hu.inited_sticky hi

end Sys2Proof.Machine
end

section
/-! The arbiter (60_exceptions.md R178): whether a cycle services an edge, line by line, and the order of its requests. -/

namespace Sys2Proof.Machine

/-! ### Whether a cycle services an edge -/

/-- The first request of a sequence, by the change it makes. -/
theorem anyServesEdge_cons {w : RequestWord} {s u : State} (h : Change (decode w) s u) (ws : List RequestWord) :
    anyServesEdge s (w :: ws) = (servesEdge w s || anyServesEdge (u.respond (answer (decode w) s)) ws) := by
  rw [anyServesEdge, exec_of_change h]

/-- The last request of a sequence, if there is one. -/
theorem anyServesEdge_toList (s : State) (c : Option RequestWord) :
    anyServesEdge s c.toList = true ↔
      s.fault = false ∧ s.inited = true ∧
        (s.edgeEn = true ∧ c.map opField = some 0x2#4 ∨ c.map opField = some 0x8#4 ∧ s.edgePend = true) := by
  cases c with
  | none => simp [anyServesEdge]
  | some w =>
    have hlast : anyServesEdge s [w] = servesEdge w s := by
      rw [anyServesEdge]
      cases exec (decode w) s <;> simp [anyServesEdge]
    rw [Option.toList_some, hlast, servesEdge_iff, serves, (decode_fields w).1]
    simp [and_comm]

/-- A faulted block services no edge, whatever is presented. -/
theorem anyServesEdge_faulted {s : State} (hf : s.fault = true) (ws : List RequestWord) :
    anyServesEdge s ws = false := by
  induction ws generalizing s with
  | nil => rfl
  | cons w ws ih =>
    have hserves : servesEdge w s = false := by simp [servesEdge, hf]
    rw [anyServesEdge_cons (.nothing (.inl hf)), hserves, Bool.false_or]
    exact ih hf

theorem op_initWord : (decode 0x100#12).op = 0x1#4 := (decode_fields _).1.trans (by decide)

theorem op_edgeWord : (decode 0x200#12).op = 0x2#4 := (decode_fields _).1.trans (by decide)

/-- The EDGE line's request and the Consumer's: an edge is serviced while enabled, else latched for an EDGE_ENA. -/
theorem anyServesEdge_edgeLine (s : State) (edge : Bool) (c : Option RequestWord) :
    anyServesEdge s ((if edge then [0x200#12] else []) ++ c.toList) = true ↔
      s.fault = false ∧ s.inited = true ∧
        (s.edgeEn = true ∧ (edge = true ∨ c.map opField = some 0x2#4) ∨
         c.map opField = some 0x8#4 ∧ (s.edgePend = true ∨ edge = true)) := by
  cases edge with
  | false => simp [anyServesEdge_toList]
  | true =>
    rw [if_pos rfl, List.singleton_append]
    by_cases hn : s.fault = true ∨ s.inited = false
    · have hinert : inert (decode 0x200#12) s := inert_of_guarded (by simp [op_edgeWord]) hn
      rw [anyServesEdge_cons (.nothing hinert), Bool.or_eq_true, servesEdge_iff, serves, anyServesEdge_toList]
      rcases hn with hf | hi
      · simp [hf]
      · simp [hi]
    · obtain ⟨hf, hi⟩ : s.fault = false ∧ s.inited = true := by simpa using hn
      cases he : s.edgeEn with
      | true =>
        have hserved := (servesEdge_iff 0x200#12 s).2 ⟨hf, hi, .inl ⟨op_edgeWord, he⟩⟩
        simp [anyServesEdge, hserved, hf, hi]
      | false =>
        rw [anyServesEdge_cons (.latch op_edgeWord hf hi he), Bool.or_eq_true, servesEdge_iff, serves,
          anyServesEdge_toList]
        simp [op_edgeWord, hf, hi, he]

/-- INIT services no edge. -/
theorem servesEdge_initWord (s : State) : servesEdge 0x100#12 s = false := by
  rw [Bool.eq_false_iff, ne_eq, servesEdge_iff]
  exact fun h => h.not_init op_initWord

/-- Is an edge serviced in a cycle? After this cycle's first INIT the block is enabled with nothing latched; a second one
faults it. -/
theorem edgeServiced_iff (s : State) (l : Lines) :
    edgeServiced s l = true ↔ s.fault = false ∧
      (l.init = true ∧ s.inited = false ∧ (l.edge = true ∨ l.consumer.map opField = some 0x2#4) ∨
       l.init = false ∧ s.inited = true ∧
        (s.edgeEn = true ∧ (l.edge = true ∨ l.consumer.map opField = some 0x2#4) ∨
         l.consumer.map opField = some 0x8#4 ∧ (s.edgePend = true ∨ l.edge = true))) := by
  rw [edgeServiced, Lines.beforeTick, List.append_assoc]
  cases hl : l.init with
  | false => simp [anyServesEdge_edgeLine]
  | true =>
    rw [if_pos rfl, List.singleton_append]
    cases hf : s.fault with
    | true => simp [anyServesEdge_faulted hf]
    | false =>
      cases hi : s.inited with
      | true =>
        rw [anyServesEdge_cons (.doubleInit op_initWord hf hi), servesEdge_initWord, Bool.false_or,
          anyServesEdge_faulted rfl]
        simp
      | false =>
        rw [anyServesEdge_cons (.arm op_initWord hf hi), servesEdge_initWord, Bool.false_or, anyServesEdge_edgeLine]
        have enabled_anyway : l.consumer.map opField = some 0x8#4 ∧ l.edge = true →
            l.edge = true ∨ l.consumer.map opField = some 0x2#4 := fun h => .inl h.2
        simpa [hf] using enabled_anyway

/-! ### The obligation -/

/-- Settles O55: `serviced` is the arbiter's own test, and each line's word carries its code. -/
theorem arbiterOrdersSimultaneousRequests : Obligations.ArbiterOrdersSimultaneousRequests := by
  intro s l serviced h
  obtain rfl : serviced = edgeServiced s l := Bool.eq_iff_iff.2 (h.trans (edgeServiced_iff s l).symm)
  have hinit : opField 0x100#12 = 0x1#4 := by decide
  have hedge : opField 0x200#12 = 0x2#4 := by decide
  have htick : opField 0x300#12 = 0x3#4 := by decide
  have hconsumer : l.consumer.toList.map opField = (l.consumer.map opField).toList := by
    cases l.consumer <;> rfl
  simp only [arbitrate, Lines.beforeTick, List.map_append, hconsumer, apply_ite (List.map opField), List.map_cons,
    List.map_nil, hinit, hedge, htick]
  simp

end Sys2Proof.Machine
end

section
/-! Reset and the hazards of the environment (70_reset_and_hazards.md): INIT after reset (R191), INIT exactly once (R192,
R198) and brief disable windows (R193, R196). -/

namespace Sys2Proof.Machine

/-! ### Steps and runs -/

/-- A step is a change by the request in front, of the state with the rest of the trace, and a response. -/
theorem step_change {s t : State} (h : step s = .next t) :
    ∃ u r, Change (decode (takeRequest s).1) (s.setRequests s.requests.tail) u ∧ t = u.respond r := by
  obtain ⟨-, he⟩ := step_next h
  rw [takeRequest_snd] at he
  exact exec_change he

/-- The idle slot's word has NOP's code. -/
theorem opField_idleWord : opField 0x000#12 = 0x0#4 := by decide

/-- What every step keeps, every run keeps. -/
theorem run_keeps {P : State → Prop} (hstep : ∀ {s t : State}, P s → step s = .next t → P t) {k : Nat}
    {s t : State} (hs : P s) (h : Host.Core.run Sys2Proof.core k s = .next t) : P t := by
  induction k generalizing s with
  | zero => exact run_zero_next.1 h ▸ hs
  | succ k ih =>
    obtain ⟨u, hu, hk⟩ := run_succ_next.1 h
    exact ih (hstep hs hu) hk

/-! ### INIT at most once -/

/-- How often INIT may still be presented: once before it has been performed, never after (70_reset_and_hazards.md R198). -/
def State.initsAllowed (s : State) : Nat := if s.inited = true then 0 else 1

theorem State.initsAllowed_le_one (s : State) : s.initsAllowed ≤ 1 := by
  unfold State.initsAllowed
  split <;> decide

theorem State.initsAllowed_pos {s : State} (h : 0 < s.initsAllowed) : s.inited = false := by
  by_contra hi
  rw [State.initsAllowed, if_pos (Bool.eq_true_of_not_eq_false hi)] at h
  exact absurd h (Nat.lt_irrefl 0)

/-- DOUBLE_INIT has not been raised, and the trace presents INIT no more often than allowed. -/
structure State.initsOnce (s : State) : Prop where
  notDouble : s.fcode ≠ fcodeDoubleInit
  allowed   : initCount s.requests ≤ s.initsAllowed

/-- The INITs of a trace are those after the next request, and the next request if it is one. -/
theorem initCount_takeRequest (s : State) :
    initCount s.requests =
      initCount s.requests.tail + if (decode (takeRequest s).1).op = 0x1#4 then 1 else 0 := by
  rw [(decode_fields _).1]
  cases h : s.requests with
  | nil => simp [takeRequest_nil h, initCount, opField_idleWord]
  | cons w ws => simp [takeRequest_cons h, initCount, List.countP_cons]

/-- The code DOUBLE_INIT is written by an INIT in an initialised block alone (60_exceptions.md R171). -/
theorem Change.fcode_ne_doubleInit {i : Instr} {s u : State} (h : Change i s u) (hc : s.fcode ≠ fcodeDoubleInit)
    (hi : i.op = 0x1#4 → s.inited = false) : u.fcode ≠ fcodeDoubleInit := by
  obtain ⟨-, -, -, -, hserved, -⟩ := servedState_frame i s
  cases h with
  | doubleInit ho _ hd => exact absurd ((hi ho).symm.trans hd) (by decide)
  | overflow => exact (by decide : fcodeIdxOverflow ≠ fcodeDoubleInit)
  | resync | advance | complete => exact hserved ▸ hc
  | _ => exact hc

/-- An INIT in front uses up the one allowed; any other request leaves `inited` as it was. -/
theorem State.initsOnce.step {s t : State} (hs : s.initsOnce) (h : step s = .next t) : t.initsOnce := by
  obtain ⟨u, r, hu, rfl⟩ := step_change h
  obtain ⟨-, -, hq⟩ := hu.config_kept
  have hcount := initCount_takeRequest s
  have hallowed := hs.allowed
  refine ⟨hu.fcode_ne_doubleInit hs.notDouble fun ho => ?_, ?_⟩
  · rw [if_pos ho] at hcount
    exact State.initsAllowed_pos (s := s) (by omega)
  · show initCount u.requests ≤ u.initsAllowed
    rw [hq, State.setRequests_requests]
    rcases hu.inited_kept_or_op with hi | ho
    · have hsame : u.initsAllowed = s.initsAllowed := by rw [State.initsAllowed, hi]; rfl
      omega
    · rw [if_pos ho] at hcount
      have hone := s.initsAllowed_le_one
      omega

/-! ### Brief disable windows -/

/-- The edges counted in the window that the trace holds open, after one more request: what `windowsBrief` keeps count
of. -/
def windowAfter (opened : Option Nat) (op : BitVec 4) : Option Nat :=
  if op = 0x7#4 then some (opened.getD 0)
  else if op = 0x8#4 then none
  else if op = 0x2#4 then opened.map (· + 1)
  else opened

/-- Every request but EDGE_ENA leaves an open window open. -/
theorem windowAfter_ne_none {o : Option Nat} {op : BitVec 4} (h : o ≠ none) (h8 : op ≠ 0x8#4) :
    windowAfter o op ≠ none := by
  unfold windowAfter
  split_ifs <;> simp [h]

/-- Every request but EDGE_ENA leaves an edge counted that has been counted. -/
theorem windowAfter_ne_zero {o : Option Nat} {op : BitVec 4} (h : o ≠ none) (h0 : o ≠ some 0) (h8 : op ≠ 0x8#4) :
    windowAfter o op ≠ some 0 := by
  obtain ⟨n, rfl⟩ := Option.ne_none_iff_exists'.1 h
  unfold windowAfter
  split_ifs <;> simp_all

/-- A trace's windows are brief exactly when its first request is no second EDGE of an open window and the windows after
it are brief. -/
theorem windowsBrief_cons {o : Option Nat} {w : RequestWord} {ws : List RequestWord} :
    windowsBrief o (w :: ws) = true ↔
      (opField w = 0x2#4 → o = none ∨ o = some 0) ∧ windowsBrief (windowAfter o (opField w)) ws = true := by
  rw [windowsBrief.eq_def, windowAfter]
  dsimp only
  split_ifs with h7 h8 h2
  · simp [h7]
  · simp [h8]
  · cases o <;> simp [h2]
  · simp [h2]

/-- The same for the next request, which is the idle slot's when the trace is at its end. -/
theorem windowsBrief_takeRequest {s : State} {o : Option Nat} (h : windowsBrief o s.requests = true) :
    ((decode (takeRequest s).1).op = 0x2#4 → o = none ∨ o = some 0) ∧
      windowsBrief (windowAfter o (decode (takeRequest s).1).op) s.requests.tail = true := by
  rw [(decode_fields _).1]
  cases hq : s.requests with
  | nil =>
    rw [hq] at h
    rw [takeRequest_nil hq, opField_idleWord]
    exact ⟨fun h2 => absurd h2 (by decide), h⟩
  | cons w ws =>
    rw [hq] at h
    rw [takeRequest_cons hq]
    exact windowsBrief_cons.1 h

/-- The window of the trace, with the edges counted in it, covers that of the state: edge detection is disabled only in an
open window, and an edge is latched only by an EDGE counted in it. -/
structure State.inWindow (s : State) (o : Option Nat) : Prop where
  disabled : s.inited = true → s.edgeEn = false → o ≠ none
  latched  : s.edgePend = true → s.inited = true ∧ o ≠ none ∧ o ≠ some 0

/-- With no edge counted, none is latched. -/
theorem State.inWindow.not_latched {s : State} {o : Option Nat} (h : s.inWindow o) (ho : o = none ∨ o = some 0) :
    s.edgePend = false := by
  refine Bool.eq_false_iff.2 fun hp => ?_
  obtain ⟨-, hn, h0⟩ := h.latched hp
  exact ho.elim hn h0

/-- With edge detection enabled and nothing latched, any window of the trace covers the state. -/
theorem inWindow_of_enabled {s : State} (he : s.inited = true → s.edgeEn = true) (hp : s.edgePend = false)
    (o : Option Nat) : s.inWindow o where
  disabled hi hd := absurd ((he hi).symm.trans hd) (by decide)
  latched h := absurd (hp.symm.trans h) (by decide)

/-- Before INIT nothing is latched (10_state.md R38 V6), so any window of the trace covers the state. -/
theorem State.inWindow.of_uninited {s : State} {o : Option Nat} (h : s.inWindow o) (hi : s.inited = false)
    (o' : Option Nat) : s.inWindow o' := by
  have inited_false : s.inited ≠ true := Bool.eq_false_iff.1 hi
  exact { disabled := fun h => absurd h inited_false, latched := fun hp => absurd (h.latched hp).1 inited_false }

/-- A request but EDGE_ENA that does nothing to the state leaves it covered. -/
theorem State.inWindow.after {s : State} {o : Option Nat} (h : s.inWindow o) {op : BitVec 4} (h8 : op ≠ 0x8#4) :
    s.inWindow (windowAfter o op) where
  disabled hi hd := windowAfter_ne_none (h.disabled hi hd) h8
  latched hp := by
    obtain ⟨hi, hn, h0⟩ := h.latched hp
    exact ⟨hi, windowAfter_ne_none hn h8, windowAfter_ne_zero hn h0 h8⟩

/-- An inert request leaves the state covered unless the block is faulted: EDGE_ENA, which closes the trace's window, is
otherwise inert only before INIT. -/
theorem State.inWindow.after_inert {i : Instr} {s : State} {o : Option Nat} (h : s.inWindow o) (hn : inert i s) :
    s.fault = true ∨ s.inWindow (windowAfter o i.op) := by
  refine hn.imp_right fun ⟨_, hguard, _⟩ => ?_
  by_cases h8 : i.op = 0x8#4
  · exact h.of_uninited (hguard (by simp [h8])) _
  · exact h.after h8

/-- The state of service is covered: EDGE is served at the state itself, EDGE_ENA with edge detection enabled and the
latch cleared. -/
theorem State.inWindow.served {s : State} {o : Option Nat} (h : s.inWindow o) (i : Instr) :
    (servedState i s).inWindow (windowAfter o i.op) := by
  by_cases h8 : i.op = 0x8#4
  · rw [servedState, if_pos h8]
    exact inWindow_of_enabled (fun _ => rfl) rfl _
  · rw [servedState_of_ne h8]
    exact h.after h8

/-- Every change leaves the trace's window covering the state's, except in a faulted state. -/
theorem Change.keeps_inWindow {i : Instr} {s u : State} {o : Option Nat} (h : Change i s u) (hs : s.inWindow o) :
    u.fault = true ∨ u.inWindow (windowAfter o i.op) := by
  cases h with
  | nothing hn => exact hs.after_inert hn
  | arm => exact .inr (inWindow_of_enabled (fun _ => rfl) rfl _)
  | doubleInit | overflow => exact .inl rfl
  | latch ho _ hi he =>
    obtain ⟨n, rfl⟩ := Option.ne_none_iff_exists'.1 (hs.disabled hi he)
    exact .inr { disabled := by simp [ho, windowAfter], latched := fun _ => ⟨hi, by simp [ho, windowAfter]⟩ }
  | disable ho =>
    have covered := hs.after (op := i.op) (by simp [ho])
    exact .inr { covered with disabled := fun _ _ => by simp [ho, windowAfter] }
  | enable _ _ _ hp => exact .inr (inWindow_of_enabled (s := s.setEdgeEn true) (fun _ => rfl) hp _)
  | resync | advance | complete => exact .inr { hs.served i with }
  | count ho | timeout ho | take ho => exact .inr { hs.after (op := i.op) (by simp [ho]) with }
  | put b ho => exact .inr { hs.after (op := i.op) (by simp [ho, Instr.op]) with }

/-- No change clears a fault (60_exceptions.md R174). -/
theorem Change.fault_sticky {i : Instr} {s u : State} (h : Change i s u) (hf : s.fault = true) : u.fault = true :=
  ((faultAndInitedAreSticky _ _ _ (exec_of_change h)).1 hf).1

/-- The block is faulted, or the trace to come is brief for a window that covers the state's. -/
def State.windowCovered (s : State) : Prop :=
  s.fault = true ∨ ∃ o, s.inWindow o ∧ windowsBrief o s.requests = true

theorem State.windowCovered.step {s t : State} (hs : s.windowCovered) (h : step s = .next t) : t.windowCovered := by
  obtain ⟨u, r, hu, rfl⟩ := step_change h
  obtain ⟨-, -, hq⟩ := hu.config_kept
  rcases hs with hf | ⟨o, hw, hb⟩
  · exact .inl (hu.fault_sticky hf)
  · obtain ⟨-, hb'⟩ := windowsBrief_takeRequest hb
    have hw' : (s.setRequests s.requests.tail).inWindow o := { hw with }
    refine (hu.keeps_inWindow hw').imp id fun hu' => ⟨_, { hu' with }, ?_⟩
    rw [State.respond_requests, hq]
    exact hb'

/-! ### The obligations -/

/-- Settles O56: that INIT is presented no more often than allowed is an invariant of the run. -/
theorem initOnceNeverFaultsAsDouble : Obligations.InitOnceNeverFaultsAsDouble := by
  intro k s t _ hc hcount h
  have hs : s.initsOnce := ⟨by rw [hc]; decide, hcount⟩
  exact (run_keeps State.initsOnce.step hs h).notDouble

/-- Settles O57: the run keeps the state's window covered by the trace's, and an EDGE in front of the trace is the first
of that window. -/
theorem briefWindowsLoseNoEdge : Obligations.BriefWindowsLoseNoEdge := by
  intro k s t w ws hp he hb h hq hw
  have hs : s.windowCovered := .inr ⟨none, inWindow_of_enabled he hp none, hb⟩
  rcases run_keeps State.windowCovered.step hs h with hf | ⟨o, ht, hbt⟩
  · exact .inr hf
  · rw [hq] at hbt
    obtain ⟨hfirst, -⟩ := windowsBrief_cons.1 hbt
    exact .inl (ht.not_latched (hfirst hw))

/-- Settles O15: at reset INIT is the first one, and every other register it writes has its value already. -/
theorem resetThenInitIsArmed : Obligations.ResetThenInitIsArmed :=
  fun d p => exec_of_change (i := .init d) (s := State.resetWith p) (.arm rfl rfl rfl)

end Sys2Proof.Machine
end
